-- ==== Sys2Proof/Word.lean ====
section
/-! DEFINITION. The words the part computes with, and the tables of a fixed size its state is made of. -/

namespace Sys2Proof

/-- A word of line blanking or a word of a management packet: 16 bits (R22). -/
abbrev Word := BitVec 16

/-- A tag, a command code or half a word: 8 bits (R22). -/
abbrev Byte := BitVec 8

/-- A sample as it is carried: a two's-complement value of 24 bits (section 0.5, R22). -/
abbrev Sample := BitVec 24

/-- `n` things of one kind, numbered from 0. The length stands beside the cells, so a table of another length cannot be built. -/
structure Table (n : Nat) (α : Type) where
  cells : List α
  size : cells.length = n
  deriving DecidableEq, Repr

namespace Table

variable {n : Nat} {α β : Type}

/-- The thing at place `i`. -/
def get (t : Table n α) (i : Fin n) : α := t.cells.get (i.cast t.size.symm)

/-- The table with `a` at place `i`. -/
def set (t : Table n α) (i : Fin n) (a : α) : Table n α :=
  ⟨t.cells.set i.val a, by rw [List.length_set]; exact t.size⟩

/-- The table with the thing at place `i` changed by `f`. -/
def modify (t : Table n α) (i : Fin n) (f : α → α) : Table n α := t.set i (f (t.get i))

/-- A table of `n` equal things. -/
def fill (n : Nat) (a : α) : Table n α := ⟨List.replicate n a, List.length_replicate⟩

/-- The table whose thing at place `i` is `f i`. -/
def tab (n : Nat) (f : Fin n → α) : Table n α :=
  ⟨(List.finRange n).map f, by rw [List.length_map, List.length_finRange]⟩

/-- The table with every thing changed by `f`. -/
def map (f : α → β) (t : Table n α) : Table n β := ⟨t.cells.map f, by rw [List.length_map]; exact t.size⟩

/-- The places at which `p` holds, in ascending order. -/
def places (t : Table n α) (p : α → Bool) : List (Fin n) := (List.finRange n).filter fun i => p (t.get i)

end Table

end Sys2Proof
end

