-- ==== Sys2Proof/Config.lean ====
section
/-! DEFINITION. The figures that are fixed for the part (section 0.8 and the rules named), and the one value the spec does not state, the check word of a failsafe image (log entry 8). The orders the spec leaves open are operands of commands (log entry 3). -/

namespace Sys2Proof.Config

/-- The sample sets a ring keeps (R49). -/
def ringDepth : Nat := 8192

/-- The distance at which a re-centre places a take point (R61), and the sets a filling ring must hold (R65). -/
def centre : Nat := 96

/-- The bounds of the slip window: below the first a record slips back, above the second it slips ahead (R64). -/
def windowLow : Nat := 64

/-- See `windowLow` (R64). -/
def windowHigh : Nat := 128

/-- The occupancy at which a write overruns a take point (R62). -/
def overrun : Nat := 2048

/-- The longest delay of an entry, in sample sets (R74, R85). -/
def maxDelay : Nat := 6000

/-- The take point records (R54). -/
def takePoints : Nat := 64

/-- The commands and answers held at once (R163). -/
def heldLimit : Nat := 32

/-- The records of the Fault Log (R154). -/
def logSize : Nat := 8

/-- The largest repeat count of a fault record, and the largest below-count of a watched track (R154, R134). -/
def byteMax : Nat := 255

/-- The largest fire lateness, frames waited and late frames (R108). -/
def countMax : Nat := 65535

/-- The largest sample magnitude above zero (section 0.5). -/
def sampleMax : Int := 8388607

/-- The lowest sample (section 0.5). -/
def sampleMin : Int := -8388608

/-- The most argument words of a management packet (R22). -/
def maxArgs : Nat := 29

/-- The marker word of a packet (R22). -/
def marker : Word := 0xA5C3

/-- The time units of one period of the 48 kHz sample clock on the internal clock. DESIGN CHOICE (log entry 5): the nominal frame period of every format is a whole number of these units. -/
def unitsPerSet : Nat := 1000

/-- The check word computed over the contents of a failsafe image (R173). DESIGN CHOICE (log entry 8): the spec gives neither its function nor its width, so it is a free value: a word that nothing here can evaluate. -/
opaque checkWord {α : Type} (contents : α) : Word

end Sys2Proof.Config
end

