-- ==== Sys2Proof/Syntax.lean ====
section
/-! DEFINITION. The commands the block takes: one constructor for each row of spec/opcode_table.json, with its operands. -/

namespace Sys2Proof

/-- An input feed or an output feed (section 0.6). -/
abbrev Feed := Fin 8

/-- A line quad (section 0.6). -/
abbrev LineQuad := Fin 4

/-- One sample for each of the 16 line inputs or line outputs (section 0.5). -/
abbrev LineSet := Table 16 Sample

/-- A time on the internal clock, in thousandths of a 48 kHz sample period (DESIGN CHOICE, log entry 5). -/
abbrev Time := Nat

/-- A line record: the deserialiser's presentation of one line, with its frame mark, its picture words and its blanking words (section 0.5, chapter 1.1). -/
structure LineRecord where
  frameMark : Bool
  picture : List Word
  blanking : List Word
  deriving DecidableEq, Repr

/-- The things that come about together at one frame boundary, one stop or one instant of domain 8, and that the rules let be taken in any order (log entry 3). -/
inductive Part where
  /-- the domain's take points are judged for slips and filling (R64, R65) -/
  | takePoints
  /-- the domain's switch in a commit in flight (R102, R103) -/
  | switch
  /-- the hand-over of the clip marks (R131, R140) -/
  | clips
  /-- the judgment of one watched track: track t of the feed, or line input t (R136, R137) -/
  | presence (t : Fin 16)
  /-- one quad's count of empty frames, and its absence (R10) -/
  | absence (q : Fin 4)
  /-- the judgment of one quad's cadence tracker (R47) -/
  | cadence (q : Fin 4)
  /-- the frame counted for a cue that is DUE (R111) -/
  | dueCount
  /-- the Path Checker's boundary (R148, R151) -/
  | pathCheck
  /-- the settle count, and the entry into LOCKED (R6) -/
  | settle
  /-- the effects of leaving LOCKED (R7) -/
  | leaveLocked
  /-- the stop of the domain (R15) -/
  | stop
  /-- the silence timer's count (R168) -/
  | silence
  /-- the emission of domain 8 at a set tick (R11) -/
  | emission
  /-- the line port's write of one line ring at a set tick (R49, R69) -/
  | lineWrite (n : LineQuad)
  /-- the offer of one line input to its watched track at a set tick (R135) -/
  | lineOffer (l : Fin 16)
  deriving DecidableEq, Repr

/-- The set ticks that a frame end finds owed and that are emitted at its instant: the line inputs at each, and the order of what they bring (R12, R69; log entries 3 and 26). -/
structure OwedTicks where
  lines : List LineSet
  order : List Part
  deriving DecidableEq, Repr

/-- The commands, one for each row of spec/opcode_table.json. The management commands carry their tag and their argument words, as the MANAGE packet that brings them does (R22). -/
inductive Instr where
  /-- Power is applied; the operand is what the address pins read (R176, R162). -/
  | powerApplied (pins : BitVec 4)
  /-- Power is lost (R175). -/
  | powerLoss
  /-- The reset pin is held (R176). -/
  | resetPinAssert
  /-- The reset pin is released; the operand is what the address pins read (R176, R162). -/
  | resetPinRelease (pins : BitVec 4)
  /-- The start-up that an accepted RESET DEVICE arranged begins (R172). -/
  | commandStartUp (pins : BitVec 4)
  /-- A line record of a feed; emission i of its line is taken after `emitAfter[i]` of its packets (R20, R43, R63). -/
  | lineRecord (feed : Feed) (record : LineRecord) (emitAfter : List Nat)
  /-- A frame mark of a feed, with the time since the boundary before it (R3). -/
  | frameBoundary (feed : Feed) (period : Time) (order : List Part)
  /-- No line record of a feed for two nominal line periods (R4). -/
  | lineRecordGap (feed : Feed) (order : List Part)
  /-- A set tick of domain 8, with the line inputs at it (R11). `order` orders what the tick brings, `frameOrder` what the frame end that the tick may bring brings; a line ring's write or an offer that `frameOrder` names is taken with the frame end (R66, R69, R135). -/
  | setTick (elapsed : Time) (lines : LineSet) (order frameOrder : List Part)
  /-- A pulse of the house reference, with the ticks still owed (R12, R14); the orders are as for a set tick. -/
  | referencePulse (elapsed : Time) (owed : OwedTicks) (frameOrder : List Part)
  /-- One and a half nominal periods have passed since the domain-8 frame began (R12); the operands are as for a pulse. -/
  | referenceWaitTimeout (elapsed : Time) (owed : OwedTicks) (frameOrder : List Part)
  /-- Two nominal periods have passed since the last reference pulse (R13). -/
  | referenceLost (elapsed : Time)
  /-- The silence timer's count has reached 0 (R169). -/
  | controlSilence
  /-- The failsafe image write ends (R175). -/
  | storeWriteEnd
  | setFeed (tag : Byte) (args : List Word)
  | readFeed (tag : Byte) (args : List Word)
  | setReference (tag : Byte) (args : List Word)
  | flush (tag : Byte) (args : List Word)
  | readTakePoints (tag : Byte) (args : List Word)
  | writeEntry (tag : Byte) (args : List Word)
  | writeQuadMode (tag : Byte) (args : List Word)
  | copyBank (tag : Byte) (args : List Word)
  | readEntry (tag : Byte) (args : List Word)
  | readQuadModes (tag : Byte) (args : List Word)
  | setGuard (tag : Byte) (args : List Word)
  | readGuards (tag : Byte) (args : List Word)
  | commit (tag : Byte) (args : List Word)
  | armCue (tag : Byte) (args : List Word)
  | disarmCue (tag : Byte) (args : List Word)
  | readCues (tag : Byte) (args : List Word)
  | setPresence (tag : Byte) (args : List Word)
  | startPathCheck (tag : Byte) (args : List Word)
  | setMixerCheck (tag : Byte) (args : List Word)
  | readFaults (tag : Byte) (args : List Word)
  | clearFaults (tag : Byte) (args : List Word)
  | setNotices (tag : Byte) (args : List Word)
  | setControl (tag : Byte) (args : List Word)
  | readDevice (tag : Byte) (args : List Word)
  | resetDevice (tag : Byte) (args : List Word)
  | storeFailsafe (tag : Byte) (args : List Word)
  /-- A command whose code stands in no row of the command code table (R164). -/
  | unknownCommand (code : Byte) (tag : Byte) (args : List Word)
  deriving DecidableEq, Repr

end Sys2Proof
end

