-- ==== Sys2Proof/Machine/State.lean ====
section
/-! DEFINITION. The state of the part as plain data, block by block, and the state right after reset. Each field cites the rule that names it; INVENTORY.md lists them all. -/

namespace Sys2Proof.Machine

/-- A picture format by its code, 0 to 10 (R1). -/
abbrev Format := Fin 11

/-- A quad within a feed, and a position within a quad (section 0.6). -/
abbrev Quad := Fin 4

/-- A ring: 4s + q for feed quads, 32 + n for line quads (section 0.6). -/
abbrev RingNo := Fin 36

/-- A timing domain: 0 to 7 the output feeds, 8 the line outputs (section 0.6). -/
abbrev Domain := Fin 9

/-- A destination: 16d + t for output tracks, 128 + l for line outputs (section 0.6). -/
abbrev Dest := Fin 144

/-- A watched track: 16s + t for input tracks, 128 + l for line inputs (section 0.6). -/
abbrev TrackNo := Fin 144

/-- An output quad: 4d + q (section 0.6). -/
abbrev OutQuad := Fin 32

/-- A take point record (section 0.6). -/
abbrev RecordNo := Fin 64

/-- A cue (section 0.6). -/
abbrev CueNo := Fin 2

/-- Domain 8, the line outputs (R15). -/
def domain8 : Domain := 8

/-- A packet as it stands in line blanking, less its marker word (R20, R22). -/
structure Packet where
  header : Word
  content : List Word
  checksum : Word
  deriving DecidableEq, Repr

/-- A sample set with its four active flags (R49). -/
structure SampleSet where
  samples : Table 4 Sample
  active : Table 4 Bool
  deriving DecidableEq, Repr

/-! ## Feed Receivers (chapters 1 to 3) -/

/-- The states of an FR (R2). -/
inductive FrState where
  | off | seeking | settling | locked | wrongFormat
  deriving DecidableEq, Repr

/-- The states of a quad of a feed (R2, R10). -/
inductive QuadState where
  | unknown | present | absent
  deriving DecidableEq, Repr

/-- A cadence tracker (R45): TRACKING or REBASE, the expected phase, the frame phase, the frame total and the phase conflict. -/
structure Tracker where
  tracking : Bool
  expected : Option Nat
  framePhase : Option Nat
  total : Nat
  conflict : Bool
  deriving DecidableEq, Repr

/-- A cadence tracker in REBASE with nothing held (R45). -/
def Tracker.rebase : Tracker := ⟨false, none, none, 0, false⟩

/-- What an FR holds for one quad: its state and empty-frame count (R2), whether an accepted packet came in the frame being read (R10), its sequence tracking (R23) and its cadence tracker (R45). -/
structure QuadTrack where
  state : QuadState
  empty : Nat
  carried : Bool
  lastCount : BitVec 4
  basePending : Bool
  tracker : Tracker
  deriving DecidableEq, Repr

/-- A quad at start-up (R2, R23, R45). -/
def QuadTrack.start : QuadTrack := ⟨.unknown, 0, false, 0, true, Tracker.rebase⟩

/-- A Feed Receiver (R2), with the frame it is measuring (R3) and what it holds for the line being read (R23, R28). -/
structure Receiver where
  enabled : Bool
  state : FrState
  /-- none stands for AUTO -/
  expected : Option Format
  settleFrames : Nat
  settleRemaining : Nat
  detected : Option Format
  candidate : Option Format
  /-- the last frame boundary arrived while the FR was not OFF (R3) -/
  frameOpen : Bool
  /-- the line records of the frame being measured, the one that opened it included (R3) -/
  lineCount : Nat
  quads : Table 4 QuadTrack
  /-- the quads that have claimed the line (R23) -/
  claimed : Table 4 Bool
  /-- the pass-through place (R23, R32) -/
  place : Option Packet
  /-- the first SOUND packet of each quad in the line (R28) -/
  remembered : Table 4 (Option Packet)
  deriving DecidableEq, Repr

/-- An FR at start-up (R2, R23, R45). -/
def Receiver.start : Receiver where
  enabled := true
  state := .seeking
  expected := none
  settleFrames := 2
  settleRemaining := 0
  detected := none
  candidate := none
  frameOpen := false
  lineCount := 0
  quads := Table.fill 4 QuadTrack.start
  claimed := Table.fill 4 false
  place := none
  remembered := Table.fill 4 none

/-! ## Output Formatters (chapters 2 and 3) -/

/-- A line as an OF sends it (R33). -/
structure OutLine where
  picture : List Word
  blanking : List Word
  deriving DecidableEq, Repr

/-- An Output Formatter: the phase of its domain (R40), the built counts (R33), the quads whose first built packet of the frame has gone (R35), the sets emitted for the line being built (R35), and the line last sent (R33). -/
structure Formatter where
  phase : Nat
  built : Table 4 (BitVec 4)
  firstSent : Table 4 Bool
  sets : List LineSet
  line : Option OutLine
  deriving DecidableEq, Repr

/-- An OF at start-up (R33, R40). -/
def Formatter.start : Formatter := ⟨0, Table.fill 4 0, Table.fill 4 false, [], none⟩

/-! ## Reference Unit (chapter 1.3) -/

/-- The states of the RU (R11). -/
inductive RuState where
  | free | locked
  deriving DecidableEq, Repr

/-- The Reference Unit (R11); `sinceFrame` is the time since the domain-8 frame began, which R12 judges pulses by. -/
structure Reference where
  state : RuState
  format : Format
  pendingFormat : Option Format
  frameCount : BitVec 32
  phase : Nat
  ticks : Nat
  sincePulse : Time
  sinceFrame : Time
  deriving DecidableEq, Repr

/-- The RU at start-up (R11). -/
def Reference.start : Reference := ⟨.free, 0, none, 0, 0, 0, 0, 0⟩

/-! ## Quad Rings and the Take Point Table (chapter 4) -/

/-- A ring: its written count and the newest sets, newest first (R49). -/
structure Ring where
  written : Nat
  store : List SampleSet
  deriving DecidableEq, Repr

/-- A ring just reset (R52). -/
def Ring.empty : Ring := ⟨0, []⟩

/-- The states of a take point record (R54). -/
inductive TpState where
  | free | filling | running | starved
  deriving DecidableEq, Repr

/-- A take point record (R54). -/
structure TakePoint where
  state : TpState
  ring : RingNo
  domain : Domain
  take : Nat
  references : Nat
  reserved : Bool
  slipsAhead : BitVec 16
  slipsBack : BitVec 16
  recentres : BitVec 16
  deriving DecidableEq, Repr

/-- A record as start-up first makes it (R54). -/
def TakePoint.start : TakePoint := ⟨.free, 0, 0, 0, 0, false, 0, 0, 0⟩

/-! ## Patch Map (chapter 5) -/

/-- A source: a track of an input feed, or a line input (R74). -/
inductive Source where
  | feedTrack (feed : Feed) (track : Fin 16)
  | lineInput (line : Fin 16)
  deriving DecidableEq, Repr

/-- A partner: its source, gain and invert (R74). -/
structure Partner where
  source : Source
  gain : Word
  invert : Bool
  deriving DecidableEq, Repr

/-- A ramp code: 0, 32, 128 or 512 sample sets (R74). -/
inductive RampCode where
  | none | short | medium | long
  deriving DecidableEq, Repr

/-- A patch entry (R74); a source that is none stands for NONE. -/
structure Entry where
  source : Option Source
  gain : Word
  invert : Bool
  partner : Option Partner
  delay : Nat
  ramp : RampCode
  mute : Bool
  deriving DecidableEq, Repr

/-- The modes of an output quad (R80). -/
inductive QuadMode where
  | pass | remove | embed24 | embed20
  deriving DecidableEq, Repr

/-- A bank: one entry for each destination and one mode for each output quad (R77). -/
structure Bank where
  entries : Table 144 Entry
  modes : Table 32 QuadMode
  deriving DecidableEq, Repr

/-- The entry of the hardware default bank (R78). -/
def Entry.default : Entry := ⟨.none, 16384, false, .none, 0, .short, false⟩

/-- The hardware default bank (R78). -/
def Bank.default : Bank := ⟨Table.fill 144 Entry.default, Table.fill 32 .pass⟩

/-- The four banks (R77). -/
inductive BankCode where
  | active | s0 | s1 | f
  deriving DecidableEq, Repr

/-- The two staging banks, which commits and cues name (R96, R108). -/
inductive Staging where
  | s0 | s1
  deriving DecidableEq, Repr

/-- A guard range (R91). -/
structure Guard where
  enabled : Bool
  low : Dest
  high : Dest
  fixed : Bool
  deriving DecidableEq, Repr

/-- A guard range at a start-up without a good image (R91). -/
def Guard.start : Guard := ⟨false, 0, 0, false⟩

/-! ## Commit Engine and Cue Unit (chapter 6) -/

/-- Who asks for a commit (R95, R96); a command's request names its staging bank. -/
inductive Requester where
  | command (bank : Staging)
  | cue (cue : CueNo)
  | failsafe
  deriving DecidableEq, Repr

/-- The result of a validation or a completion (R95). -/
inductive CommitResult where
  | none | done | refusedGuarded | refusedTableFull
  deriving DecidableEq, Repr

/-- The commit in flight (R95): the snapshot P, the requester, for a cue the values it held at validation, the domains switched and the records allocated. -/
structure InFlight where
  snapshot : Bank
  requester : Requester
  fireLateness : Nat
  framesWaited : Nat
  dueMark : Bool
  switched : Table 9 Bool
  allocated : Nat
  deriving DecidableEq, Repr

/-- The Commit Engine (R95): IDLE is no commit in flight. -/
structure Engine where
  inFlight : Option InFlight
  waiting : List Requester
  commitCount : BitVec 16
  lastSource : Option Requester
  lastResult : CommitResult
  deriving DecidableEq, Repr

/-- The CE at start-up (R95). -/
def Engine.start : Engine := ⟨.none, [], 0, .none, .none⟩

/-- The states of a cue (R108). -/
inductive CueState where
  | idle | armed | due
  deriving DecidableEq, Repr

/-- A timecode, of a stamp or of a label (R108, R109). -/
structure Stamp where
  hours : Nat
  minutes : Nat
  seconds : Nat
  frames : Nat
  deriving DecidableEq, Repr

/-- The last outcome of a cue (R108). -/
inductive CueOutcome where
  | none | done | late (frames : Nat) | refusedGuarded | refusedTableFull
  deriving DecidableEq, Repr

/-- A cue (R108). -/
structure Cue where
  state : CueState
  bank : Staging
  feed : Feed
  label : Stamp
  fireLateness : Nat
  framesWaited : Nat
  dueMark : Bool
  outcome : CueOutcome
  deriving DecidableEq, Repr

/-- A cue at start-up (R108). -/
def Cue.start : Cue := ⟨.idle, .s0, 0, ⟨0, 0, 0, 0⟩, 0, 0, false, .none⟩

/-! ## Mixer, Level Watch and checkers (chapters 7 to 9) -/

/-- A ramp in progress: the old entry, its length K and its progress n (R119). -/
structure Ramp where
  old : Entry
  length : Nat
  progress : Nat
  deriving DecidableEq, Repr

/-- The presence states of a watched track (R134). -/
inductive Presence where
  | unknown | present | silent
  deriving DecidableEq, Repr

/-- What the LW holds for a watched track (R134). -/
structure WatchedTrack where
  presence : Presence
  below : Nat
  peak : Nat
  deriving DecidableEq, Repr

/-- A watched track that has been reset (R134, R139). -/
def WatchedTrack.start : WatchedTrack := ⟨.unknown, 0, 0⟩

/-- The Level Watch (R134). -/
structure Watch where
  tracks : Table 144 WatchedTrack
  threshold : Nat
  frames : Nat
  deriving DecidableEq, Repr

/-- The LW at start-up (R134). -/
def Watch.start : Watch := ⟨Table.fill 144 WatchedTrack.start, 8192, 125⟩

/-- The Check Mixer's round in one domain (R143); `fresh` says that the first emission of the frame is still to come (R144). -/
structure Round where
  cursor : Nat
  count : BitVec 16
  checked : Option Dest
  mismatch : Bool
  fresh : Bool
  deriving DecidableEq, Repr

/-- The Check Mixer (R143). -/
structure CheckMixer where
  rounds : Table 9 Round
  inject : Bool
  deriving DecidableEq, Repr

/-- The CM at start-up: every cursor at its domain's lowest destination (R143). -/
def CheckMixer.start : CheckMixer := ⟨Table.tab 9 fun d => ⟨16 * d.val, 0, none, false, true⟩, false⟩

/-- The states of the PC (R147). -/
inductive PcState where
  | idle | waiting | checking
  deriving DecidableEq, Repr

/-- The tally of one output quad in a path check (R147); `noted` says that its slot carried a packet on a quiet line (R149). -/
structure Tally where
  checked : Bool
  sets : Nat
  lastCount : Option (BitVec 4)
  firstSeen : Bool
  fail : Bool
  noted : Bool
  deriving DecidableEq, Repr

/-- A clear tally (R147, R148). -/
def Tally.clear : Tally := ⟨false, 0, none, false, false, false⟩

/-- The Path Checker (R147); `marked` says that frame line 3 of the checked frame has been reached (R149). -/
structure PathChecker where
  state : PcState
  feed : Feed
  phase : Nat
  total : Nat
  marked : Bool
  quads : Table 4 Tally
  tracks : Table 16 Bool
  deriving DecidableEq, Repr

/-- The PC at start-up (R147). -/
def PathChecker.start : PathChecker := ⟨.idle, 0, 0, 0, false, Table.fill 4 Tally.clear, Table.fill 16 false⟩

/-! ## Fault Log (chapter 10) -/

/-- The reasons of faults (R153). -/
inductive Reason where
  | soundChecksum | sequenceGap | packetMisplaced | cadenceMismatch | lockLost | formatMismatch
  | ringRecentre | referenceLost | referenceRestored | clipping | mixerMismatch | silence
  | managementChecksum | queueOverrun | controlSilence | failsafeRefused | cueLate | cueRefused
  deriving DecidableEq, Repr

/-- The sources of faults: a kind with its index (R153). -/
inductive FaultSource where
  | inputQuad (feed : Feed) (quad : Quad)
  | inputFeed (feed : Feed)
  | takePoint (ring : RingNo) (domain : Domain)
  | reference
  | destination (dest : Dest)
  | watchedTrack (track : TrackNo)
  | management (control : Feed)
  | cue (cue : CueNo)
  deriving DecidableEq, Repr

/-- A fault record (R154). -/
structure FaultRecord where
  reason : Reason
  source : FaultSource
  firstStamp : BitVec 32
  repeats : Nat
  deriving DecidableEq, Repr

/-- The Fault Log, its records oldest first (R154). -/
structure FaultLog where
  records : List FaultRecord
  overflow : Bool
  masked : Bool
  pending : Bool
  deriving DecidableEq, Repr

/-- The FL at start-up (R154). -/
def FaultLog.start : FaultLog := ⟨[], false, true, false⟩

/-! ## Management (chapter 11) -/

/-- The outcomes of commands (R165). -/
inductive Verdict where
  | done | clamped | started | refusedArgument | refusedGuarded | refusedTableFull | refusedBusy | refusedFixed
  | aborted | unknownCommand
  deriving DecidableEq, Repr

/-- A command of the command queue (R163). -/
structure Command where
  tag : Byte
  code : Byte
  args : List Word
  deriving DecidableEq, Repr

/-- A command answer that waits in the AQ (R38, R165). -/
structure Answer where
  tag : Byte
  code : Byte
  verdict : Verdict
  words : List Word
  deriving DecidableEq, Repr

/-- A notice that waits in the AQ: the four result words that R157 fixes (R38). -/
structure Notice where
  reason : Reason
  source : FaultSource
  count : Nat
  deriving DecidableEq, Repr

/-- The silence time (R162). -/
inductive SilenceTime where
  | off | s2 | s10 | s60
  deriving DecidableEq, Repr

/-- The silence action (R162). -/
inductive SilenceAction where
  | hold | failsafe
  deriving DecidableEq, Repr

/-- The CX: IDLE, EXECUTING (R164), or stopped by an accepted RESET DEVICE (R172). -/
inductive CxState where
  | idle | executing | stopped
  deriving DecidableEq, Repr

/-- What the MP, the CX and the AQ hold: the address and the control settings (R162), the command queue (R163), the executor (R164), the AQ with its notice ahead of the command answers (R157, R165), and the silence timer (R168). -/
structure Management where
  address : Nat
  controlFeed : Feed
  answerFeed : Feed
  silenceTime : SilenceTime
  silenceAction : SilenceAction
  queue : List Command
  cx : CxState
  discard : Bool
  notice : Option Notice
  answers : List Answer
  timerRunning : Bool
  remaining : Nat
  deriving DecidableEq, Repr

/-- Management at start-up, with the device address sampled (R162 to R164, R168). -/
def Management.start (address : Nat) : Management where
  address := address
  controlFeed := 0
  answerFeed := 0
  silenceTime := .off
  silenceAction := .hold
  queue := []
  cx := .idle
  discard := false
  notice := none
  answers := []
  timerRunning := false
  remaining := 0

/-! ## Failsafe Store and the part's pins (chapter 12) -/

/-- The store state (R173). -/
inductive StoreState where
  | invalid | writing | valid
  deriving DecidableEq, Repr

/-- A guard range as the image keeps it: without its fixed flag (R173). -/
structure GuardImage where
  enabled : Bool
  low : Dest
  high : Dest
  deriving DecidableEq, Repr

/-- What the check word of a failsafe image is computed over: the bank and the guard ranges (R173). -/
structure ImageContents where
  bank : Bank
  guards : Table 4 GuardImage
  deriving DecidableEq, Repr

/-- A failsafe image: its contents and the check word it holds (R173). -/
structure Image extends ImageContents where
  check : Word
  deriving DecidableEq, Repr

/-- The Failsafe Store: its state, the image it holds, and the contents of a write in progress (R173, R175). A store that was never written, or whose write was interrupted, holds none: what it holds then is not good, and nothing more of it is stated (log entries 8 and 20). -/
structure Store where
  state : StoreState
  image : Option Image
  writing : Option ImageContents
  deriving DecidableEq, Repr

/-- A store that has never been written (R173). -/
def Store.start : Store := ⟨.invalid, none, none⟩

/-- The start causes (R176). -/
inductive StartCause where
  | power | pin | command
  deriving DecidableEq, Repr

/-- Power, the reset pin, the address pins, the cause of the last start-up, and whether an accepted RESET DEVICE still awaits its start-up (R172, R175, R176). -/
structure Pins where
  powered : Bool
  resetHeld : Bool
  address : BitVec 4
  cause : StartCause
  startUpDue : Bool
  deriving DecidableEq, Repr

/-! ## The whole part -/

/-- Why the model stops with a fault: never. The part records its faults in its Fault Log and goes on (R153 to R155), so there is no constructor. -/
inductive Fault where
  deriving DecidableEq, Repr

/-- Why the model refuses a command. -/
inductive Refusal where
  /-- Raised by an arm of exec whose command has no meaning yet. Safe: nothing is claimed of it. -/
  | notModelled (mnemonic : String)
  deriving DecidableEq, Repr

/-- The state of the part: every block's state, the pins, and the queue of commands that wait to be taken. -/
structure State where
  pins : Pins
  /-- the line inputs as last presented (R11) -/
  lineIn : LineSet
  /-- the values the LP drives (R133) -/
  lineOut : LineSet
  fr : Table 8 Receiver
  fmt : Table 8 Formatter
  ru : Reference
  rings : Table 36 Ring
  tpt : Table 64 TakePoint
  active : Bank
  s0 : Bank
  s1 : Bank
  failsafe : Bank
  guards : Table 4 Guard
  ce : Engine
  cues : Table 2 Cue
  ramps : Table 144 (Option Ramp)
  clips : Table 144 Bool
  watch : Watch
  cm : CheckMixer
  pc : PathChecker
  log : FaultLog
  mgmt : Management
  store : Store
  /-- the commands that wait to be taken, first in, first out: the model's own field -/
  pending : List Instr
  deriving DecidableEq, Repr

/-- The part right after power has been applied for the first time (R177): start cause POWER, no good image, address pins 0. -/
def State.reset : State where
  pins := ⟨true, false, 0, .power, false⟩
  lineIn := Table.fill 16 0
  lineOut := Table.fill 16 0
  fr := Table.fill 8 Receiver.start
  fmt := Table.fill 8 Formatter.start
  ru := Reference.start
  rings := Table.fill 36 Ring.empty
  tpt := Table.fill 64 TakePoint.start
  active := Bank.default
  s0 := Bank.default
  s1 := Bank.default
  failsafe := Bank.default
  guards := Table.fill 4 Guard.start
  ce := Engine.start
  cues := Table.fill 2 Cue.start
  ramps := Table.fill 144 none
  clips := Table.fill 144 false
  watch := Watch.start
  cm := CheckMixer.start
  pc := PathChecker.start
  log := FaultLog.start
  mgmt := Management.start 0
  store := Store.start
  pending := []

end Sys2Proof.Machine
end

