-- ==== Sys2Proof/Machine/Formats.lean ====
section
/-! DEFINITION. The picture formats (R1), their periods (R3) and the cadence arithmetic (R39, R42). -/

namespace Sys2Proof.Machine

/-- The lines L of a frame (R1). -/
def linesOf (f : Format) : Nat := if f.val < 8 then 1125 else 750

/-- The carrying lines C of a frame: all but the two quiet lines (section 0.5, R1). -/
def carryingOf (f : Format) : Nat := linesOf f - 2

/-- The nominal frame rate R, rounded to an integer (R1). -/
def rateOf (f : Format) : Nat :=
  match f.val with
  | 0 => 25
  | 1 | 2 => 24
  | 3 | 4 => 30
  | 5 | 8 => 50
  | _ => 60

/-- T, the sample sets in a run of N frames (R39). -/
def runSets (f : Format) : Nat :=
  match f.val with
  | 0 => 1920
  | 1 => 2000
  | 2 => 2002
  | 3 => 1600
  | 4 => 8008
  | 5 | 8 => 960
  | 6 | 9 => 800
  | _ => 4004

/-- N, the cadence length (R39). -/
def cadenceLength (f : Format) : Nat :=
  match f.val with
  | 4 | 7 | 10 => 5
  | _ => 1

/-- S(k), the sample sets of a frame of phase k (R39). -/
def frameSets (f : Format) (k : Nat) : Nat :=
  (k + 1) * runSets f / cadenceLength f - k * runSets f / cadenceLength f

/-- D(j), the sets given to carrying line j in a frame of phase k (R42). -/
def lineSets (f : Format) (k j : Nat) : Nat :=
  (j + 1) * frameSets f k / carryingOf f - j * frameSets f k / carryingOf f

/-- The sets given to a frame line, counted from 1: none on the quiet lines and beyond line L (R42, R43). -/
def setsOnFrameLine (f : Format) (k line : Nat) : Nat :=
  if 3 ≤ line ∧ line ≤ linesOf f then lineSets f k (line - 3) else 0

/-- The phase after phase k (R40, R41). -/
def nextPhase (f : Format) (k : Nat) : Nat := (k + 1) % cadenceLength f

/-- The nominal frame period in time units: T/N sample periods (R3, R39; log entry 5). -/
def nominalPeriod (f : Format) : Time := Config.unitsPerSet * runSets f / cadenceLength f

/-- A frame of this line count and period matches a format: the lines are L and the period lies within ±200 ppm of nominal (R3). -/
def frameMatches (f : Format) (lines : Nat) (period : Time) : Bool :=
  lines == linesOf f && decide (5000 * (period - nominalPeriod f) ≤ nominalPeriod f)
    && decide (5000 * (nominalPeriod f - period) ≤ nominalPeriod f)

/-- The format a frame matches, at most one (R3). -/
def matchFormat (lines : Nat) (period : Time) : Option Format :=
  (List.finRange 11).find? fun f => frameMatches f lines period

end Sys2Proof.Machine
end

