-- ==== Sys2Proof/Machine/Ops.lean ====
section
/-! DEFINITION. The named operations over the state: one update for each block, and the walks that the rules repeat over records, destinations and domains. -/

namespace Sys2Proof

/-- The number of a word when it is below `n`: how the ranges of argument words are judged. -/
def Word.index? (n : Nat) (w : Word) : Option (Fin n) :=
  if h : w.toNat < n then some ⟨w.toNat, h⟩ else none

/-- A flag word: 0 is off and 1 is on; any other word is out of range (R16, R83). -/
def Word.flag? (w : Word) : Option Bool :=
  if w = 0 then some false else if w = 1 then some true else none

/-- The word of a flag. -/
def flagWord (b : Bool) : Word := if b then 1 else 0

/-- The word of a number, which must fit 16 bits where the rules give it to a result word. -/
def numWord (k : Nat) : Word := BitVec.ofNat 16 k

/-- Division rounded to the nearest integer, halves away from zero (section 0.6). -/
def roundDiv (a : Int) (b : Nat) : Int :=
  if 0 ≤ a then (2 * a + b) / (2 * b) else -((2 * (-a) + b) / (2 * b))

end Sys2Proof

namespace Sys2Proof.Machine

namespace State

/-- FR s becomes r. -/
def setFr (s : State) (f : Feed) (r : Receiver) : State := { s with fr := s.fr.set f r }

/-- OF d becomes o. -/
def setFmt (s : State) (f : Feed) (o : Formatter) : State := { s with fmt := s.fmt.set f o }

/-- The RU becomes r. -/
def setRu (s : State) (r : Reference) : State := { s with ru := r }

/-- Ring r becomes g. -/
def setRing (s : State) (r : RingNo) (g : Ring) : State := { s with rings := s.rings.set r g }

/-- The Take Point Table becomes t. -/
def setTpt (s : State) (t : Table 64 TakePoint) : State := { s with tpt := t }

/-- The commit engine becomes e. -/
def setCe (s : State) (e : Engine) : State := { s with ce := e }

/-- Cue c becomes q. -/
def setCue (s : State) (c : CueNo) (q : Cue) : State := { s with cues := s.cues.set c q }

/-- The ramp record of destination x becomes r. -/
def setRamp (s : State) (x : Dest) (r : Option Ramp) : State := { s with ramps := s.ramps.set x r }

/-- The clip marks become c. -/
def setClips (s : State) (c : Table 144 Bool) : State := { s with clips := c }

/-- The watched tracks become t. -/
def setTracks (s : State) (t : Table 144 WatchedTrack) : State := { s with watch := { s.watch with tracks := t } }

/-- The Check Mixer's round in domain d becomes r. -/
def setRound (s : State) (d : Domain) (r : Round) : State :=
  { s with cm := { s.cm with rounds := s.cm.rounds.set d r } }

/-- The Path Checker becomes p. -/
def setPc (s : State) (p : PathChecker) : State := { s with pc := p }

/-- The Fault Log becomes l. -/
def setLog (s : State) (l : FaultLog) : State := { s with log := l }

/-- Management becomes m. -/
def setMgmt (s : State) (m : Management) : State := { s with mgmt := m }

/-- The pins become p. -/
def setPins (s : State) (p : Pins) : State := { s with pins := p }

end State

/-! ## Numbering (section 0.6, R75, R79) -/

/-- Ring 4s + q (R49). -/
def feedRing (f : Feed) (q : Quad) : RingNo := ⟨4 * f.val + q.val, by omega⟩

/-- Ring 32 + n (R49). -/
def lineRing (n : LineQuad) : RingNo := ⟨32 + n.val, by omega⟩

/-- The watched track at position p of a ring: the tracks of ring r are 4r to 4r + 3 (R134, R135). -/
def ringTrack (r : RingNo) (p : Fin 4) : TrackNo := ⟨4 * r.val + p.val, by omega⟩

/-- The ring that holds a watched track (R75). -/
def trackRing (w : TrackNo) : RingNo := ⟨w.val / 4, by omega⟩

/-- The domain of an output feed (R15). -/
def feedDomain (f : Feed) : Domain := ⟨f.val, by omega⟩

/-- The output feed of a feed domain; none for domain 8 (R15). -/
def domainFeed? (d : Domain) : Option Feed := if h : d.val < 8 then some ⟨d.val, h⟩ else none

/-- Destination 16d + t (R79). -/
def domainDest (d : Domain) (t : Fin 16) : Dest := ⟨16 * d.val + t.val, by omega⟩

/-- The domain a destination belongs to (R79). -/
def destDomain (x : Dest) : Domain := ⟨x.val / 16, by omega⟩

/-- The output quad of a destination; none for a line output (R79). -/
def destQuad? (x : Dest) : Option OutQuad := if h : x.val / 4 < 32 then some ⟨x.val / 4, h⟩ else none

/-- Output quad 4d + q (R79). -/
def outQuad (f : Feed) (q : Quad) : OutQuad := ⟨4 * f.val + q.val, by omega⟩

/-- The domain an output quad belongs to (R79). -/
def quadDomain (q : OutQuad) : Domain := ⟨q.val / 4, by omega⟩

/-- Destination 4Q + p of output quad Q (R79). -/
def quadDest (q : OutQuad) (p : Fin 4) : Dest := ⟨4 * q.val + p.val, by omega⟩

/-- Track 4q + p of a feed (section 0.5). -/
def quadTrack (q : Quad) (p : Fin 4) : Fin 16 := ⟨4 * q.val + p.val, by omega⟩

/-! ## Domains (R15) -/

/-- The states of an FR in which its domain runs (R15). -/
def runningState (r : FrState) : Bool :=
  match r with
  | .settling | .locked | .wrongFormat => true
  | .off | .seeking => false

/-- A domain is running: a feed domain while its FR is SETTLING, LOCKED or WRONG FORMAT, domain 8 at all times (R15). -/
def domainRunning (s : State) (d : Domain) : Bool :=
  match domainFeed? d with
  | some f => runningState (s.fr.get f).state
  | none => true

/-! ## Walks -/

/-- The state after each thing of a list has been taken in turn. -/
def walk {α : Type} (l : List α) (f : α → State → State) (s : State) : State := l.foldl (fun s a => f a s) s

/-- The parts that come about together in the order they are taken: those the order operand names first, in its order, then the others as they stand (log entry 3). A part that comes more than once is taken once for each time it is named. -/
def schedule (order parts : List Part) : List Part :=
  match order with
  | [] => parts
  | p :: rest => if p ∈ parts then p :: schedule rest (parts.erase p) else schedule rest parts

end Sys2Proof.Machine
end

