-- ==== Sys2Proof/Machine/Log.lean ====
section
/-! DEFINITION. The Fault Log (chapter 10): taking a fault, and the notices that announce records. -/

namespace Sys2Proof.Machine

/-- The code of a reason (R153). -/
def reasonCode (r : Reason) : Nat :=
  match r with
  | .soundChecksum => 1
  | .sequenceGap => 2
  | .packetMisplaced => 3
  | .cadenceMismatch => 4
  | .lockLost => 5
  | .formatMismatch => 6
  | .ringRecentre => 7
  | .referenceLost => 8
  | .referenceRestored => 9
  | .clipping => 10
  | .mixerMismatch => 11
  | .silence => 12
  | .managementChecksum => 13
  | .queueOverrun => 14
  | .controlSilence => 15
  | .failsafeRefused => 16
  | .cueLate => 17
  | .cueRefused => 18

/-- The kind code of a fault source (R153). -/
def sourceKind (src : FaultSource) : Nat :=
  match src with
  | .inputQuad _ _ => 1
  | .inputFeed _ => 2
  | .takePoint _ _ => 3
  | .reference => 4
  | .destination _ => 5
  | .watchedTrack _ => 6
  | .management _ => 7
  | .cue _ => 8

/-- The index of a fault source (R153). -/
def sourceIndex (src : FaultSource) : Nat :=
  match src with
  | .inputQuad f q => 4 * f.val + q.val
  | .inputFeed f => f.val
  | .takePoint r d => 16 * r.val + d.val
  | .reference => 0
  | .destination x => x.val
  | .watchedTrack w => w.val
  | .management f => f.val
  | .cue c => c.val

/-- The fault source management: its index is the control feed at the moment of recording (R153). -/
def managementSource (s : State) : FaultSource := .management s.mgmt.controlFeed

/-- A record is for this reason and source (R155). -/
def FaultRecord.isFor (r : FaultRecord) (reason : Reason) (src : FaultSource) : Bool :=
  r.reason == reason && r.source == src

/-- A record with one more occurrence collapsed into it (R155). -/
def FaultRecord.collapse (r : FaultRecord) : FaultRecord := { r with repeats := min Config.byteMax (r.repeats + 1) }

/-- The notice that describes a record, with the records in the log at that moment (R38, R157). -/
def noticeFor (l : FaultLog) (r : FaultRecord) : Notice := ⟨r.reason, r.source, l.records.length⟩

/-- The notice condition that an append raises: a notice is placed at the head of the AQ, or pending is set (R157). -/
def noticeCondition (r : FaultRecord) (s : State) : State :=
  if s.log.masked || s.mgmt.notice.isSome then s.setLog { s.log with pending := true }
  else s.setMgmt { s.mgmt with notice := some (noticeFor s.log r) }

/-- The FL takes a fault: it is collapsed into the record it has, appended, or lost (R155). -/
def report (reason : Reason) (src : FaultSource) (s : State) : State :=
  if s.log.records.any fun r => r.isFor reason src then
    s.setLog { s.log with
      records := s.log.records.map fun r => if r.isFor reason src then r.collapse else r }
  else if s.log.records.length < Config.logSize then
    let r : FaultRecord := ⟨reason, src, s.ru.frameCount, 0⟩
    noticeCondition r (s.setLog { s.log with records := s.log.records ++ [r] })
  else s.setLog { s.log with overflow := true }

/-- When pending is set, the mask is UNMASKED and no notice waits, a notice for the newest record is placed and pending is cleared (R158, R161). -/
def noticeForNewest (s : State) : State :=
  if s.log.pending && !s.log.masked && s.mgmt.notice.isNone then
    match s.log.records.getLast? with
    | some r => (s.setMgmt { s.mgmt with notice := some (noticeFor s.log r) }).setLog { s.log with pending := false }
    | none => s
  else s

end Sys2Proof.Machine
end

