-- ==== Sys2Proof/Machine/Packets.lean ====
section
/-! DEFINITION. Packets in line blanking: framing, layouts and checksums (R20 to R22). -/

namespace Sys2Proof.Machine

/-! ## Header and framing -/

/-- The class field of a header: bits 15 to 12 (R22). -/
def headerClass (h : Word) : Nat := (h.extractLsb' 12 4).toNat

/-- The quad or address field of a header: bits 11 to 8 (R22). -/
def headerField (h : Word) : Nat := (h.extractLsb' 8 4).toNat

/-- The content length of a header: bits 7 to 0 (R22). -/
def headerLength (h : Word) : Nat := (h.extractLsb' 0 8).toNat

/-- A header of a class, a field and a content length (R22). -/
def makeHeader (cls field length : Nat) : Word := BitVec.ofNat 4 cls ++ BitVec.ofNat 4 field ++ BitVec.ofNat 8 length

/-- The classes of packets (R21). -/
inductive PacketClass where
  | sound | manage | answer | stamp | clear | other
  deriving DecidableEq, Repr

/-- The class a class field assigns (R21). -/
def classOf (h : Word) : PacketClass :=
  match headerClass h with
  | 1 => .sound
  | 2 => .manage
  | 3 => .answer
  | 4 => .stamp
  | 5 => .clear
  | _ => .other

/-- The checksum of a header and content: their sum modulo 65536 (R21). -/
def checksumOf (header : Word) (content : List Word) : Word := content.foldl (· + ·) header

/-- A packet's checksum is good (R21). -/
def Packet.good (p : Packet) : Bool := p.checksum == checksumOf p.header p.content

/-- A packet of a header and content, with its checksum (R21, R22). -/
def makePacket (header : Word) (content : List Word) : Packet := ⟨header, content, checksumOf header content⟩

/-- The words a packet takes in the blanking, its marker first (R22). -/
def Packet.words (p : Packet) : List Word := Config.marker :: p.header :: p.content ++ [p.checksum]

/-- What the scan of a line finds: a whole packet, or a truncated one with its header if the line holds it (R20). -/
inductive Scanned where
  | packet (p : Packet)
  | truncated (header : Option Word)
  deriving DecidableEq, Repr

/-- The scan of blanking words, at most `fuel` of them (R20). -/
def scanWords (fuel : Nat) (ws : List Word) : List Scanned :=
  match fuel, ws with
  | 0, _ => []
  | _ + 1, [] => []
  | n + 1, w :: rest =>
    if w = Config.marker then
      match rest with
      | [] => [.truncated none]
      | h :: body =>
        if headerLength h < body.length then
          .packet ⟨h, body.take (headerLength h), body.getD (headerLength h) 0⟩ ::
            scanWords n (body.drop (headerLength h + 1))
        else [.truncated (some h)]
    else scanWords n rest

/-- The packets of a line's blanking, in order; a truncated packet ends the scan (R20). -/
def scanLine (blanking : List Word) : List Scanned := scanWords blanking.length blanking

/-! ## SOUND packets -/

/-- The four samples of a set of six words (R22). -/
def unpackSet (ws : List Word) : Table 4 Sample :=
  let w := fun i => ws.getD i 0
  ⟨[w 0 ++ (w 1).extractLsb' 8 8, (w 1).extractLsb' 0 8 ++ w 2, w 3 ++ (w 4).extractLsb' 8 8, (w 4).extractLsb' 0 8 ++ w 5], rfl⟩

/-- The six words of a set (R22). -/
def packSet (t : Table 4 Sample) : List Word :=
  [(t.get 0).extractLsb' 8 16, (t.get 0).extractLsb' 0 8 ++ (t.get 1).extractLsb' 16 8, (t.get 1).extractLsb' 0 16,
    (t.get 2).extractLsb' 8 16, (t.get 2).extractLsb' 0 8 ++ (t.get 3).extractLsb' 16 8, (t.get 3).extractLsb' 0 16]

/-- The first content word of a SOUND packet (R22). -/
structure SoundHead where
  count : BitVec 4
  phase : BitVec 3
  first : Bool
  setCount : BitVec 2
  wide : Bool
  active : Table 4 Bool
  deriving DecidableEq, Repr

/-- The fields of the first content word of a SOUND packet (R22). -/
def soundHead (w : Word) : SoundHead where
  count := w.extractLsb' 12 4
  phase := w.extractLsb' 9 3
  first := w.getLsbD 8
  setCount := w.extractLsb' 6 2
  wide := w.getLsbD 5
  active := Table.tab 4 fun p => w.getLsbD (p.val + 1)

/-- The first content word of a SOUND packet with these fields and spare 0 (R22). -/
def soundWord (h : SoundHead) : Word :=
  h.count ++ h.phase ++ BitVec.ofBool h.first ++ h.setCount ++ BitVec.ofBool h.wide ++ BitVec.ofBool (h.active.get 3) ++
    BitVec.ofBool (h.active.get 2) ++ BitVec.ofBool (h.active.get 1) ++ BitVec.ofBool (h.active.get 0) ++ 0#1

/-- The fields of a SOUND packet's first content word; a packet without content has the fields of a zero word. -/
def Packet.soundHead (p : Packet) : SoundHead := Machine.soundHead (p.content.getD 0 0)

/-- The sets a SOUND packet carries by its set count, with its active flags (R22, R27). -/
def Packet.soundSets (p : Packet) : List SampleSet :=
  (List.range p.soundHead.setCount.toNat).map fun i =>
    ⟨unpackSet ((p.content.drop (1 + 6 * i)).take 6), p.soundHead.active⟩

/-- A SOUND packet of a quad with these fields and sets (R22, R35). -/
def makeSound (q : Quad) (h : SoundHead) (sets : List (Table 4 Sample)) : Packet :=
  makePacket (makeHeader 1 q.val (1 + 6 * sets.length)) (soundWord h :: sets.flatMap packSet)

/-- The content length of a SOUND packet agrees with its set count of 1 or 2 (R21, R25). -/
def Packet.soundLengthAgrees (p : Packet) : Bool :=
  let n := p.soundHead.setCount.toNat
  (n == 1 || n == 2) && headerLength p.header == 1 + 6 * n

/-! ## Other classes -/

/-- The quad a SOUND packet names; none for quad fields 4 to 15 (R28). -/
def Packet.quad? (p : Packet) : Option Quad :=
  if h : headerField p.header < 4 then some ⟨headerField p.header, h⟩ else none

/-- The command of a MANAGE packet (R22). -/
def Packet.command (p : Packet) : Command where
  tag := (p.content.getD 0 0).extractLsb' 8 8
  code := (p.content.getD 0 0).extractLsb' 0 8
  args := p.content.drop 1

/-- The content length is one that the class allows (R21): 1 to 30 for MANAGE, 0 for CLEAR. -/
def Packet.managementLengthAllowed (p : Packet) : Bool :=
  match classOf p.header with
  | .manage => decide (1 ≤ headerLength p.header ∧ headerLength p.header ≤ Config.maxArgs + 1)
  | .clear => headerLength p.header == 0
  | .sound | .answer | .stamp | .other => true

/-- The stamp of a STAMP packet (R22). -/
def Packet.stamp (p : Packet) : Stamp where
  hours := ((p.content.getD 0 0).extractLsb' 8 8).toNat
  minutes := ((p.content.getD 0 0).extractLsb' 0 8).toNat
  seconds := ((p.content.getD 1 0).extractLsb' 8 8).toNat
  frames := ((p.content.getD 1 0).extractLsb' 0 8).toNat

/-- A stamp's fields lie in range for a nominal rate (R31). -/
def Stamp.inRange (t : Stamp) (rate : Nat) : Bool :=
  decide (t.hours < 24) && decide (t.minutes < 60) && decide (t.seconds < 60) && decide (t.frames < rate)

end Sys2Proof.Machine
end

