-- ==== Sys2Proof/Machine/Answers.lean ====
section
/-! DEFINITION. Answers: how the CX completes a command, and how the AQ's head becomes a packet (R38, R165). -/

namespace Sys2Proof.Machine

/-- The code of an outcome (R165). -/
def verdictCode (v : Verdict) : Nat :=
  match v with
  | .done => 0
  | .clamped => 1
  | .started => 2
  | .refusedArgument => 16
  | .refusedGuarded => 17
  | .refusedTableFull => 18
  | .refusedBusy => 19
  | .refusedFixed => 20
  | .aborted => 32
  | .unknownCommand => 33

/-- The held count: the commands in the queue, the one in flight included, and the command answers in the AQ (R163). -/
def heldCount (m : Management) : Nat := m.queue.length + m.answers.length

/-- The command in flight, at the head of the queue, completes: it leaves the queue, its answer joins the AQ or is discarded, and the CX becomes IDLE (R163 to R165, R167). -/
def completedManagement (v : Verdict) (words : List Word) (m : Management) : Management :=
  match m.queue with
  | [] => { m with cx := .idle }
  | c :: rest =>
    if m.discard then { m with queue := rest, cx := .idle, discard := false }
    else { m with queue := rest, cx := .idle, answers := m.answers ++ [⟨c.tag, c.code, v, words⟩] }

/-- The command in flight is answered (R165). -/
def answerCommand (v : Verdict) (words : List Word) (s : State) : State :=
  s.setMgmt (completedManagement v words s.mgmt)

end Sys2Proof.Machine
end

