-- ==== Sys2Proof/Machine/Rings.lean ====
section
/-! DEFINITION. The Quad Rings and the Take Point Table (chapter 4). -/

namespace Sys2Proof.Machine

/-! ## Rings -/

/-- The set a ring returns at a position: none below the sets it keeps or at a position not yet written (R50). -/
def Ring.read (g : Ring) (p : Nat) : Option SampleSet :=
  if p < g.written then g.store[g.written - 1 - p]? else none

/-- A ring after one more set is written: the newest stands first, and the newest 8192 are kept (R49). -/
def Ring.push (g : Ring) (x : SampleSet) : Ring := ⟨g.written + 1, (x :: g.store).take Config.ringDepth⟩

/-- A ring is fed: a feed ring while its FR is LOCKED and its quad is not ABSENT, a line ring at all times (R51). -/
def ringFed (s : State) (r : RingNo) : Bool :=
  if h : r.val / 4 < 8 then
    let fr := s.fr.get ⟨r.val / 4, h⟩
    fr.state == .locked && (fr.quads.get ⟨r.val % 4, Nat.mod_lt _ (by decide)⟩).state != .absent
  else true

/-- The watched tracks with the four of a ring reset (R139). -/
def resetRingTracks (r : RingNo) (t : Table 144 WatchedTrack) : Table 144 WatchedTrack :=
  Table.tab 144 fun w => if trackRing w = r then WatchedTrack.start else t.get w

/-- A record moved to a state, unless it is FREE or not on the ring (R52, R53). -/
def TakePoint.movedOn (tp : TakePoint) (r : RingNo) (st : TpState) : TakePoint :=
  if tp.ring = r ∧ tp.state ≠ .free then { tp with state := st } else tp

/-- A ring is reset: its written count becomes 0, its take points go to FILLING, and its four watched tracks become UNKNOWN (R52, R139). -/
def resetRing (r : RingNo) (s : State) : State :=
  ((s.setRing r Ring.empty).setTpt (s.tpt.map fun tp => tp.movedOn r .filling)).setTracks
    (resetRingTracks r s.watch.tracks)

/-- A feed ring starves: its take points go to STARVED (R53). -/
def starveRing (r : RingNo) (s : State) : State := s.setTpt (s.tpt.map fun tp => tp.movedOn r .starved)

/-! ## Take points -/

/-- The occupancy of a record: its ring's written count less its take (R54). -/
def occupancy (s : State) (tp : TakePoint) : Nat := (s.rings.get tp.ring).written - tp.take

/-- A record re-centred on a ring of this written count (R61). -/
def TakePoint.recentred (tp : TakePoint) (written : Nat) : TakePoint :=
  { tp with take := written - Config.centre, recentres := tp.recentres + 1 }

/-- A record re-centres, and RING RECENTRE is recorded (R61). -/
def recentre (i : RecordNo) (s : State) : State :=
  let tp := s.tpt.get i
  report .ringRecentre (.takePoint tp.ring tp.domain)
    (s.setTpt (s.tpt.set i (tp.recentred (s.rings.get tp.ring).written)))

/-- A record overrun by a write on ring r re-centres (R62). -/
def overrunRecord (r : RingNo) (i : RecordNo) (s : State) : State :=
  let tp := s.tpt.get i
  if tp.state = .running ∧ tp.ring = r ∧ Config.overrun ≤ occupancy s tp then recentre i s else s

/-- One write event of one or two sets on a ring, and the overruns it brings (R49, R62). -/
def writeEvent (r : RingNo) (sets : List SampleSet) (s : State) : State :=
  walk (List.finRange 64) (overrunRecord r) (s.setRing r (sets.foldl Ring.push (s.rings.get r)))

/-- A record of domain d that an emission finds RUNNING with occupancy 0 re-centres (R59). -/
def underrunRecord (d : Domain) (i : RecordNo) (s : State) : State :=
  let tp := s.tpt.get i
  if tp.state = .running ∧ tp.domain = d ∧ occupancy s tp = 0 then recentre i s else s

/-- The underruns of an emission of domain d, dealt with before any read (R59). -/
def underruns (d : Domain) (s : State) : State := walk (List.finRange 64) (underrunRecord d) s

/-- After the reads of an emission of domain d, every RUNNING record of the domain advances by one (R58). -/
def advanceTakes (d : Domain) (s : State) : State :=
  s.setTpt (s.tpt.map fun tp => if tp.state = .running ∧ tp.domain = d then { tp with take := tp.take + 1 } else tp)

/-- A record as a frame boundary of its domain leaves it: a RUNNING record slips by at most one set, a FILLING record whose ring is fed and holds 96 sets enters RUNNING (R64, R65). -/
def judgedAtBoundary (s : State) (tp : TakePoint) : TakePoint :=
  match tp.state with
  | .running =>
    if Config.windowHigh < occupancy s tp then
      { tp with take := tp.take + 1, slipsAhead := tp.slipsAhead + 1 }
    else if occupancy s tp < Config.windowLow then
      { tp with take := tp.take - 1, slipsBack := tp.slipsBack + 1 }
    else tp
  | .filling =>
    if ringFed s tp.ring ∧ Config.centre ≤ (s.rings.get tp.ring).written then
      { tp with take := (s.rings.get tp.ring).written - Config.centre, state := .running }
    else tp
  | .free | .starved => tp

/-- A frame boundary of domain d judges the domain's records (R64, R65). -/
def judgeTakePoints (d : Domain) (s : State) : State :=
  s.setTpt (s.tpt.map fun tp => if tp.domain = d then judgedAtBoundary s tp else tp)

/-- A domain's start sends its RUNNING and FILLING records to FILLING; STARVED ones stay (R68). -/
def startTakePoints (d : Domain) (s : State) : State :=
  s.setTpt (s.tpt.map fun tp =>
    if tp.domain = d ∧ tp.state = .running then { tp with state := .filling } else tp)

/-! ## Pairs and references -/

/-- A record holds the pair (ring, domain): it is not FREE and is on that ring and of that domain (R54). -/
def TakePoint.holds (tp : TakePoint) (p : RingNo × Domain) : Bool :=
  tp.state != .free && tp.ring == p.1 && tp.domain == p.2

/-- The non-FREE record of a pair (R54, R122). -/
def recordOf? (s : State) (p : RingNo × Domain) : Option TakePoint := s.tpt.cells.find? fun tp => tp.holds p

/-- The pairs held: those of the records that are not FREE (R99). -/
def heldPairs (t : Table 64 TakePoint) : List (RingNo × Domain) :=
  (t.cells.filter fun tp => tp.state != .free).map fun tp => (tp.ring, tp.domain)

/-- A record freshly allocated to a pair (R55). -/
def TakePoint.allocated (p : RingNo × Domain) (reserved : Bool) (references : Nat) : TakePoint :=
  ⟨.filling, p.1, p.2, 0, references, reserved, 0, 0, 0⟩

/-- The lowest-index FREE record is allocated to a pair (R55, R100). -/
def allocate (p : RingNo × Domain) (reserved : Bool) (references : Nat) (t : Table 64 TakePoint) : Table 64 TakePoint :=
  match (t.places fun tp => tp.state == .free).head? with
  | some i => t.set i (TakePoint.allocated p reserved references)
  | none => t

/-- One more reference on the record of a pair (R56). -/
def addReference (p : RingNo × Domain) (t : Table 64 TakePoint) : Table 64 TakePoint :=
  t.map fun tp => if tp.holds p then { tp with references := tp.references + 1 } else tp

/-- One reference fewer on the record of a pair (R56). -/
def dropReference (p : RingNo × Domain) (t : Table 64 TakePoint) : Table 64 TakePoint :=
  t.map fun tp => if tp.holds p then { tp with references := tp.references - 1 } else tp

/-- A record with no references and no reserved mark becomes FREE, keeping the rest (R56). -/
def TakePoint.freedIfUnused (tp : TakePoint) : TakePoint :=
  if tp.references = 0 ∧ tp.reserved = false then { tp with state := .free } else tp

/-- The records of domain d that are no longer used become FREE (R56, R103). -/
def freeUnused (d : Domain) (t : Table 64 TakePoint) : Table 64 TakePoint :=
  t.map fun tp => if tp.domain = d then tp.freedIfUnused else tp

end Sys2Proof.Machine
end

