-- ==== Sys2Proof/Machine/Patch.lean ====
section
/-! DEFINITION. The Patch Map (chapter 5): sources, banks, destinations in use, references and guard ranges. -/

namespace Sys2Proof.Machine

/-- The number of a source, which is also its watched track: 16s + t for a feed track, 128 + l for a line input (R83). -/
def sourceNumber (src : Source) : TrackNo :=
  match src with
  | .feedTrack f t => ⟨16 * f.val + t.val, by omega⟩
  | .lineInput l => ⟨128 + l.val, by omega⟩

/-- The source of a number (R83). -/
def sourceOfNumber (w : TrackNo) : Source :=
  if h : w.val < 128 then .feedTrack ⟨w.val / 16, by omega⟩ ⟨w.val % 16, by omega⟩
  else .lineInput ⟨w.val - 128, by omega⟩

/-- The ring that holds a source: 4s + t div 4 for a feed track, 32 + l div 4 for a line input (R75). -/
def sourceRing (src : Source) : RingNo :=
  match src with
  | .feedTrack f t => ⟨4 * f.val + t.val / 4, by omega⟩
  | .lineInput l => ⟨32 + l.val / 4, by omega⟩

/-- The position of a source within the sets of its ring (R75). -/
def sourcePosition (src : Source) : Fin 4 :=
  match src with
  | .feedTrack _ t => ⟨t.val % 4, by omega⟩
  | .lineInput l => ⟨l.val % 4, by omega⟩

/-- The length of a ramp code in sample sets (R74). -/
def rampLength (c : RampCode) : Nat :=
  match c with
  | .none => 0
  | .short => 32
  | .medium => 128
  | .long => 512

/-- A mode embeds: EMBED24 or EMBED20 (R80). -/
def embeds (m : QuadMode) : Bool :=
  match m with
  | .embed24 | .embed20 => true
  | .pass | .remove => false

/-! ## Banks -/

/-- A bank of the patch map by its code (R77). -/
def bankOf (s : State) (c : BankCode) : Bank :=
  match c with
  | .active => s.active
  | .s0 => s.s0
  | .s1 => s.s1
  | .f => s.failsafe

/-- A staging bank (R77). -/
def stagingOf (s : State) (b : Staging) : Bank :=
  match b with
  | .s0 => s.s0
  | .s1 => s.s1

/-- A staging bank becomes k (R77). -/
def setStaging (b : Staging) (k : Bank) (s : State) : State :=
  match b with
  | .s0 => { s with s0 := k }
  | .s1 => { s with s1 := k }

/-! ## In use, references and pair need -/

/-- A destination is computed under a bank's modes: it is a line output, or its output quad embeds (R81, R120). -/
def carriedIn (b : Bank) (x : Dest) : Bool :=
  match destQuad? x with
  | some q => embeds (b.modes.get q)
  | none => true

/-- A destination is in use in a bank (R81). -/
def inUseIn (b : Bank) (x : Dest) : Bool := (b.entries.get x).source.isSome && carriedIn b x

/-- The pairs an entry needs in a domain, its primary's and then its partner's (R82). -/
def entryPairs (e : Entry) (d : Domain) : List (RingNo × Domain) :=
  match e.source with
  | none => []
  | some src =>
    (sourceRing src, d) :: (match e.partner with
      | none => []
      | some p => [(sourceRing p.source, d)])

/-- The pairs that a destination needs in a bank: none when it is not in use (R82). -/
def destPairs (b : Bank) (x : Dest) : List (RingNo × Domain) :=
  if inUseIn b x then entryPairs (b.entries.get x) (destDomain x) else []

/-- Every need of a bank, over its destinations in ascending order (R82, R100). -/
def bankPairs (b : Bank) : List (RingNo × Domain) := (List.finRange 144).flatMap (destPairs b)

/-- The pair need of a bank: its distinct pairs (R82). -/
def pairNeed (b : Bank) : Nat := (bankPairs b).dedup.length

/-- A watched track is referenced: some destination in use names it as its primary or its partner source (R138). -/
def trackReferenced (b : Bank) (w : TrackNo) : Bool :=
  (List.finRange 144).any fun x =>
    inUseIn b x &&
      ((b.entries.get x).source == some (sourceOfNumber w) ||
        (b.entries.get x).partner.any fun p => p.source == sourceOfNumber w)

/-! ## Guard ranges (R91) -/

/-- A guard range guards a destination (R91). -/
def Guard.covers (g : Guard) (x : Dest) : Bool := g.enabled && decide (g.low ≤ x) && decide (x ≤ g.high)

/-- A destination is guarded by one of the ranges (R91). -/
def destGuarded (g : Table 4 Guard) (x : Dest) : Bool := g.cells.any fun r => r.covers x

/-- An output quad is guarded: at least one of its four destinations is (R91). -/
def quadGuarded (g : Table 4 Guard) (q : OutQuad) : Bool := (List.finRange 4).any fun p => destGuarded g (quadDest q p)

/-- The guarded destinations whose entry differs between two banks, in ascending order (R98). -/
def guardedDestDiffs (g : Table 4 Guard) (a b : Bank) : List Dest :=
  (List.finRange 144).filter fun x => destGuarded g x && a.entries.get x != b.entries.get x

/-- The guarded output quads whose mode differs between two banks, in ascending order (R98). -/
def guardedQuadDiffs (g : Table 4 Guard) (a b : Bank) : List OutQuad :=
  (List.finRange 32).filter fun q => quadGuarded g q && a.modes.get q != b.modes.get q

/-- The patch of a failsafe commit: F with the guarded items of the patch in force (R97). -/
def guardedOver (g : Table 4 Guard) (inForce f : Bank) : Bank where
  entries := Table.tab 144 fun x => if destGuarded g x then inForce.entries.get x else f.entries.get x
  modes := Table.tab 32 fun q => if quadGuarded g q then inForce.modes.get q else f.modes.get q

end Sys2Proof.Machine
end

