-- ==== Sys2Proof/Machine/Flags.lean ====
section
/-! DEFINITION. The flags the part computes: the log flags of an answer (R38) and the active flags of a built packet (R35). -/

namespace Sys2Proof.Machine

/-- The flags byte of an answer, read from the Fault Log: bit 0 log not empty, bit 1 overflow, bit 2 notice pending (R22, R38). -/
def logFlags (l : FaultLog) : Byte :=
  0#5 ++ BitVec.ofBool l.pending ++ BitVec.ofBool l.overflow ++ BitVec.ofBool (!l.records.isEmpty)

/-- The active flags of a built packet of an output quad: set where the entry in force names a source (R35). -/
def activeFlags (b : Bank) (q : OutQuad) : Table 4 Bool :=
  Table.tab 4 fun p => (b.entries.get (quadDest q p)).source.isSome

/-- An ANSWER packet: address, tag and code, outcome and flags, result words (R22, R38). -/
def answerPacket (address : Nat) (tag code : Byte) (outcome : Nat) (flags : Byte) (words : List Word) : Packet :=
  makePacket (makeHeader 3 address (2 + words.length)) ((tag ++ code) :: (BitVec.ofNat 8 outcome ++ flags) :: words)

/-- The packet of a command answer as it leaves, with the flags of the log at that moment (R38). -/
def packetOfAnswer (s : State) (a : Answer) : Packet :=
  answerPacket s.mgmt.address a.tag a.code (verdictCode a.verdict) (logFlags s.log) a.words

/-- The packet of a notice as it leaves: tag 0, command code 255, outcome DONE and four result words (R38). -/
def packetOfNotice (s : State) (n : Notice) : Packet :=
  answerPacket s.mgmt.address 0 255 0 (logFlags s.log)
    [numWord (reasonCode n.reason), numWord (sourceKind n.source), numWord (sourceIndex n.source), numWord n.count]

end Sys2Proof.Machine
end

