-- ==== Sys2Proof/Machine/Mixer.lean ====
section
/-! DEFINITION. The Mixer's arithmetic (chapter 7): from fetch to word length, on the take points as they stand. -/

namespace Sys2Proof.Machine

/-- The set read for an entry with this delay through a record: none while the record is not RUNNING or the position lies below 0 (R50, R58, R60). -/
def setRead (s : State) (tp : TakePoint) (delay : Nat) : Option SampleSet :=
  if tp.state = .running ∧ delay ≤ tp.take then (s.rings.get tp.ring).read (tp.take - delay) else none

/-- The sample a set offers at a position: 0 when its active flag is off (R122). -/
def activeSample (x : SampleSet) (p : Fin 4) : Int := if x.active.get p then (x.samples.get p).toInt else 0

/-- The fetched value of a source in a domain (R122). -/
def fetch (s : State) (d : Domain) (delay : Nat) (src : Source) : Int :=
  match recordOf? s (sourceRing src, d) with
  | none => 0
  | some tp =>
    match setRead s tp delay with
    | none => 0
    | some x => activeSample x (sourcePosition src)

/-- A value with its polarity (R124). -/
def polarity (invert : Bool) (v : Int) : Int := if invert then -v else v

/-- The wide value W of an entry: primary by gain, plus partner by partner gain (R124). -/
def wideValue (s : State) (d : Domain) (e : Entry) : Int :=
  match e.source with
  | none => 0
  | some src =>
    polarity e.invert (fetch s d e.delay src) * e.gain.toNat +
      (match e.partner with
        | none => 0
        | some p => polarity p.invert (fetch s d e.delay p.source) * p.gain.toNat)

/-- The scaled value Y of an entry (R125). -/
def scaledValue (s : State) (d : Domain) (e : Entry) : Int := if e.mute then 0 else roundDiv (wideValue s d e) 16384

/-- The blend of a ramp of length K at progress n (R127). -/
def blend (old new : Int) (k n : Nat) : Int := roundDiv (old * ((k : Int) - n) + new * n) k

/-- The pre-saturation value of a destination: the scaled value of its entry in force, blended while a ramp is in progress (R125 to R127). -/
def preSaturation (s : State) (x : Dest) : Int :=
  let new := scaledValue s (destDomain x) (s.active.entries.get x)
  match s.ramps.get x with
  | none => new
  | some r => blend (scaledValue s (destDomain x) r.old) new r.length r.progress

/-- A value saturated to 24 bits (R130). -/
def saturate (x : Int) : Int := max Config.sampleMin (min Config.sampleMax x)

/-- A saturated value reduced to a 20-bit step: rounded to a multiple of 16, held at the largest one in range (R132). -/
def round20 (x : Int) : Int := 16 * min 524287 (x.sign * ((x.natAbs + 8) / 16 : Nat))

/-- The destination's quad carries 20-bit sound (R132). -/
def is20 (s : State) (x : Dest) : Bool :=
  match destQuad? x with
  | some q => s.active.modes.get q == .embed20
  | none => false

/-- The emitted value of a destination (R121, R130, R132). -/
def mixValue (s : State) (x : Dest) : Int :=
  let v := saturate (preSaturation s x)
  if is20 s x then round20 v else v

/-- Saturation changes the destination's value at this emission, so its clip mark is set (R130). -/
def clips (s : State) (x : Dest) : Bool := carriedIn s.active x && saturate (preSaturation s x) != preSaturation s x

/-- The emitted values of a domain's computed destinations at one emission, by track or line (R120, R121); a destination that is not computed has none, and the 0 at its place goes nowhere. -/
def emittedValues (s : State) (d : Domain) : Table 16 Int :=
  Table.tab 16 fun t => if carriedIn s.active (domainDest d t) then mixValue s (domainDest d t) else 0

/-- The samples of a table of emitted values (R22). -/
def toSamples (v : Table 16 Int) : LineSet := v.map fun x => BitVec.ofInt 24 x

end Sys2Proof.Machine
end

