-- ==== Sys2Proof/Machine/Watching.lean ====
section
/-! DEFINITION. The Level Watch (chapter 8): offers, judgments and the clip marks it is handed. -/

namespace Sys2Proof.Machine

/-- A track offered a sample's magnitude (R135). -/
def WatchedTrack.offered (t : WatchedTrack) (magnitude : Nat) : WatchedTrack := { t with peak := max t.peak magnitude }

/-- The magnitude a set offers at a position: 0 when its active flag is off (R135). -/
def offeredMagnitude (x : SampleSet) (p : Fin 4) : Nat := (activeSample x p).natAbs

/-- One set of a ring offered to the ring's watched tracks (R135). -/
def offerSet (r : RingNo) (x : SampleSet) (s : State) : State :=
  s.setTracks ((List.finRange 4).foldl
    (fun t p => t.modify (ringTrack r p) fun w => w.offered (offeredMagnitude x p)) s.watch.tracks)

/-- The sets of a write event offered in order (R135). -/
def offerSets (r : RingNo) (sets : List SampleSet) (s : State) : State := walk sets (offerSet r) s

/-- A track after its frame is judged (R136): at or above the threshold it is PRESENT; below it the count rises, and at the presence frames it is SILENT. The peak becomes 0. -/
def judgedTrack (threshold frames : Nat) (t : WatchedTrack) : WatchedTrack :=
  if threshold ≤ t.peak then ⟨.present, 0, 0⟩
  else
    let below := min Config.byteMax (t.below + 1)
    ⟨if frames ≤ below then .silent else t.presence, below, 0⟩

/-- A watched track is judged, and SILENCE is recorded when it goes from PRESENT to SILENT while referenced (R136, R138). -/
def judgeTrack (w : TrackNo) (s : State) : State :=
  let before := s.watch.tracks.get w
  let after := judgedTrack s.watch.threshold s.watch.frames before
  let s' := s.setTracks (s.watch.tracks.set w after)
  if before.presence = .present ∧ after.presence = .silent ∧ trackReferenced s.active w then
    report .silence (.watchedTrack w) s'
  else s'

/-- A track of a quad that is not PRESENT at the boundary: not judged, its peak becomes 0 (R136). -/
def clearPeak (w : TrackNo) (s : State) : State :=
  s.setTracks (s.watch.tracks.modify w fun t => { t with peak := 0 })

/-- Watched track 16s + t of an input feed (R134). -/
def feedTrack (f : Feed) (t : Fin 16) : TrackNo := ⟨16 * f.val + t.val, by omega⟩

/-- Watched track 128 + l, of a line input (R134). -/
def lineTrack (l : Fin 16) : TrackNo := ⟨128 + l.val, by omega⟩

/-- One watched track of an input feed at a boundary that leaves its FR in LOCKED (R136). -/
def judgeFeedTrack (f : Feed) (t : Fin 16) (s : State) : State :=
  if ((s.fr.get f).quads.get ⟨t.val / 4, by omega⟩).state = .present then judgeTrack (feedTrack f t) s
  else clearPeak (feedTrack f t) s

/-- The watched tracks of an input feed are reset when its FR leaves LOCKED (R139). -/
def resetFeedTracks (f : Feed) (s : State) : State :=
  s.setTracks (Table.tab 144 fun w => if w.val / 16 = f.val then WatchedTrack.start else s.watch.tracks.get w)

/-- The four watched tracks of a ring are reset (R139). -/
def resetTracksOfRing (r : RingNo) (s : State) : State := s.setTracks (resetRingTracks r s.watch.tracks)

/-- The clip marks of a domain cleared (R131). -/
def clearClips (d : Domain) (s : State) : State :=
  s.setClips (Table.tab 144 fun x => if destDomain x = d then false else s.clips.get x)

/-- At a frame boundary of domain d its clip marks are handed over: CLIPPING is recorded in ascending destination order, and the marks are cleared (R131, R140). -/
def handOverClips (d : Domain) (s : State) : State :=
  clearClips d (walk (List.finRange 16) (fun t s' =>
    if s.clips.get (domainDest d t) then report .clipping (.destination (domainDest d t)) s' else s') s)

end Sys2Proof.Machine
end

