-- ==== Sys2Proof/Machine/Checks.lean ====
section
/-! DEFINITION. The Check Mixer and the Path Checker (chapter 9). -/

namespace Sys2Proof.Machine

/-! ## Check Mixer -/

/-- The destinations in use of a domain, in ascending order (R144). -/
def inUseOf (s : State) (d : Domain) : List Dest :=
  ((List.finRange 16).map (domainDest d)).filter fun x => inUseIn s.active x

/-- The CM's choice at the first emission of a frame (R144). -/
def chosenRound (s : State) (d : Domain) (r : Round) : Round :=
  match (inUseOf s d).find? fun x => decide (r.cursor ≤ x.val) with
  | some x => { r with cursor := x.val + 1, checked := some x, mismatch := false, fresh := false }
  | none =>
    match (inUseOf s d).head? with
    | some x => { r with cursor := x.val + 1, count := r.count + 1, checked := some x, mismatch := false, fresh := false }
    | none => { r with checked := none, mismatch := false, fresh := false }

/-- At the first emission of a frame the CM chooses the frame's checked destination (R144). -/
def chooseChecked (d : Domain) (s : State) : State :=
  let r := s.cm.rounds.get d
  if r.fresh then s.setRound d (chosenRound s d r) else s

/-- The CM's own value for a destination: computed from the same reads, plus 1 when the inject flag is on, not saturated again (R145). -/
def checkValue (s : State) (x : Dest) : Int := mixValue s x + (if s.cm.inject then 1 else 0)

/-- The CM compares its value with the MX's for the checked destination, and records MIXER MISMATCH once in a frame (R145). -/
def compareChecked (d : Domain) (value : Dest → Int) (s : State) : State :=
  let r := s.cm.rounds.get d
  match r.checked with
  | none => s
  | some x =>
    if checkValue s x ≠ value x ∧ r.mismatch = false then
      report .mixerMismatch (.destination x) (s.setRound d { r with mismatch := true })
    else s

/-- A new frame of domain d begins: its first emission is still to come (R144). -/
def freshRound (d : Domain) (s : State) : State := s.setRound d { s.cm.rounds.get d with fresh := true }

/-- When domain d stops, its checked destination becomes NONE and its mismatch mark is cleared (R143). -/
def stopRound (d : Domain) (s : State) : State :=
  s.setRound d { s.cm.rounds.get d with checked := none, mismatch := false }

/-! ## Path Checker -/

/-- The set totals of the four quads: 0 for a quad that is not checked (R152). -/
def pathTotals (p : PathChecker) : List Word := p.quads.cells.map fun q => numWord (if q.checked then q.sets else 0)

/-- The result code of track 4q + p: 2 NOT CHECKED, 1 FAIL, 0 PASS (R151, R152). -/
def trackResult (p : PathChecker) (t : Fin 16) : Word :=
  let q := p.quads.get ⟨t.val / 4, by omega⟩
  if !q.checked then 2 else if q.fail || p.tracks.get t then 1 else 0

/-- The result words of a completed path check (R151, R152). -/
def pathWords (p : PathChecker) : List Word :=
  [numWord p.feed.val, numWord p.phase, numWord p.total] ++ (List.finRange 16).map (trackResult p) ++ pathTotals p

/-- The result words of an aborted path check: every track FAIL; phase 255 and no totals before the frame began (R152). -/
def abortWords (p : PathChecker) : List Word :=
  if p.state = .checking then
    [numWord p.feed.val, numWord p.phase, numWord p.total] ++ List.replicate 16 1 ++ pathTotals p
  else [numWord p.feed.val, 255, 0] ++ List.replicate 16 1 ++ List.replicate 4 0

/-- The path check in progress is aborted (R152). -/
def abortPathCheck (s : State) : State :=
  answerCommand .aborted (abortWords s.pc) (s.setPc { s.pc with state := .idle })

/-- The stop of domain f aborts a path check of it (R152). -/
def pathCheckStop (f : Feed) (s : State) : State :=
  if s.pc.state ≠ .idle ∧ s.pc.feed = f then abortPathCheck s else s

/-- A checked quad whose set total is not S(k) fails at completion (R151). -/
def Tally.closed (q : Tally) (total : Nat) : Tally := { q with fail := q.fail || (q.checked && q.sets != total) }

/-- A frame boundary of domain f: a waiting check begins with the frame it opens, a running one completes (R148, R151). -/
def pathCheckBoundary (f : Feed) (s : State) : State :=
  if s.pc.feed = f then
    match s.pc.state with
    | .idle => s
    | .waiting =>
      let k := (s.fmt.get f).phase
      let total := match (s.fr.get f).detected with
        | some fm => frameSets fm k
        | none => 0
      s.setPc ⟨.checking, f, k, total, false, Table.fill 4 Tally.clear, Table.fill 16 false⟩
    | .checking =>
      let p := { s.pc with quads := s.pc.quads.map fun q => q.closed s.pc.total }
      answerCommand .done (pathWords p) (s.setPc { p with state := .idle })
  else s

/-- The built packet's fields and checksum are what R35 asks for on a line with this many sets (R149). -/
def packetAsAsked (s : State) (f : Feed) (q : Quad) (sets : Nat) (t : Tally) (p : Packet) : Bool :=
  let h := p.soundHead
  p.good && p.header == makeHeader 1 q.val (1 + 6 * h.setCount.toNat) && h.setCount.toNat == sets
    && h.phase.toNat == s.pc.phase && h.first == t.lastCount.isNone
    && (match t.lastCount with
      | none => true
      | some c => h.count == c + 1)
    && h.wide == (s.active.modes.get (outQuad f q) == .embed24)
    && h.active == activeFlags s.active (outQuad f q)

/-- The quad tally after one output line: the slot is held against the distribution and against R35 (R149). -/
def tallied (s : State) (f : Feed) (q : Quad) (sets : Nat) (slot : Option Packet) (t : Tally) : Tally :=
  match slot with
  | none => { t with fail := t.fail || sets != 0 }
  | some p =>
    { t with
      fail := t.fail || sets == 0 || !packetAsAsked s f q sets t p
      sets := t.sets + p.soundHead.setCount.toNat
      lastCount := some p.soundHead.count
      firstSeen := t.firstSeen || p.soundHead.first }

/-- The samples of a packet of quad q differ at position p from the values the MX handed the OF for the line (R150); a packet whose set count is not the line's is not compared. -/
def sampleDiffers (s : State) (f : Feed) (q : Quad) (slot : Option Packet) (p : Fin 4) : Bool :=
  match slot with
  | none => false
  | some k =>
    let sets := (s.fmt.get f).sets
    k.soundHead.setCount.toNat == sets.length && (k.soundSets.map fun x => x.samples.get p) != sets.map fun v => v.get (quadTrack q p)

/-- One output line is examined for the quads that are checked (R149, R150). -/
def examineSlots (f : Feed) (line : Nat) (slots : Table 4 (Option Packet)) (s : State) : State :=
  let sets := match (s.fr.get f).detected with
    | some fm => setsOnFrameLine fm s.pc.phase line
    | none => 0
  s.setPc { s.pc with
    quads := Table.tab 4 fun q =>
      let t := s.pc.quads.get q
      if t.checked then tallied s f q sets (slots.get q) t else t
    tracks := Table.tab 16 fun t =>
      let q : Quad := ⟨t.val / 4, by omega⟩
      s.pc.tracks.get t ||
        ((s.pc.quads.get q).checked && sampleDiffers s f q (slots.get q) ⟨t.val % 4, Nat.mod_lt _ (by decide)⟩) }

/-- At the first carrying line each output quad is marked checked when its mode in force embeds, and what stood on the quiet lines is judged (R149). -/
def markQuads (f : Feed) (s : State) : State :=
  s.setPc { s.pc with
    marked := true
    quads := Table.tab 4 fun q =>
      let t := s.pc.quads.get q
      let c := embeds (s.active.modes.get (outQuad f q))
      { t with checked := c, fail := c && t.noted } }

/-- On a quiet line the PC notes which sound slots carry a packet (R149). DESIGN CHOICE (log entry 36): the packet's set count and packet count are not taken into the tally. -/
def noteQuiet (slots : Table 4 (Option Packet)) (s : State) : State :=
  s.setPc { s.pc with
    quads := Table.tab 4 fun q =>
      let t := s.pc.quads.get q
      { t with noted := t.noted || (slots.get q).isSome } }

/-- The PC looks at an output line of feed f as OFf sends it (R149, R152). -/
def pathCheckLine (f : Feed) (line : Nat) (slots : Table 4 (Option Packet)) (s : State) : State :=
  if s.pc.state = .checking ∧ s.pc.feed = f then
    if line ≤ 2 then noteQuiet slots s
    else
      let s1 := if s.pc.marked then s else markQuads f s
      if s1.pc.quads.cells.any fun t => t.checked then
        match (s1.fr.get f).detected with
        | some fm => if line ≤ linesOf fm then examineSlots f line slots s1 else s1
        | none => s1
      else abortPathCheck s1
  else s

end Sys2Proof.Machine
end

