-- ==== Sys2Proof/Machine/Emission.lean ====
section
/-! DEFINITION. An emission of a domain (R58, R121): its reads, its values, the Check Mixer's comparison, and the advance of take points and ramps. -/

namespace Sys2Proof.Machine

/-- A ramp ends: the references it held are released and its record is empty (R104, R127). -/
def endRamp (x : Dest) (s : State) : State :=
  match s.ramps.get x with
  | none => s
  | some r => (s.setTpt ((entryPairs r.old (destDomain x)).foldl (fun t p => dropReference p t) s.tpt)).setRamp x none

/-- After an emission a ramp's progress rises by one; at its length the ramp ends (R127). -/
def advanceRamp (x : Dest) (s : State) : State :=
  match s.ramps.get x with
  | none => s
  | some r => if r.length ≤ r.progress + 1 then endRamp x s else s.setRamp x (some { r with progress := r.progress + 1 })

/-- The ramps of domain d advance, and the records their ends leave unused become FREE (R104, R127). -/
def advanceRamps (d : Domain) (s : State) : State :=
  let s' := walk ((List.finRange 16).map (domainDest d)) advanceRamp s
  s'.setTpt (freeUnused d s'.tpt)

/-- The ramps of domain d end with its stop or its next switch (R104, R128). -/
def endRamps (d : Domain) (s : State) : State :=
  let s' := walk ((List.finRange 16).map (domainDest d)) endRamp s
  s'.setTpt (freeUnused d s'.tpt)

/-- The clip marks of the destinations of domain d that this emission saturates are set (R130). -/
def markClips (d : Domain) (s : State) : State :=
  s.setClips (Table.tab 144 fun x => s.clips.get x || (destDomain x == d && clips s x))

/-- The emitted values go out: to the OF as one set for the line, or to the LP, which drives them until the next tick (R121, R133). -/
def emitTo (d : Domain) (v : LineSet) (s : State) : State :=
  match domainFeed? d with
  | some f => s.setFmt f { s.fmt.get f with sets := (s.fmt.get f).sets ++ [v] }
  | none => { s with lineOut := v }

/-- One emission of domain d (R58, R121). -/
def emission (d : Domain) (s : State) : State :=
  let s1 := chooseChecked d (underruns d s)
  let values := emittedValues s1 d
  let s2 := compareChecked d (fun x => values.get ⟨x.val % 16, Nat.mod_lt _ (by decide)⟩) s1
  emitTo d (toSamples values) (advanceRamps d (advanceTakes d (markClips d s2)))

end Sys2Proof.Machine
end

