-- ==== Sys2Proof/Machine/Commits.lean ====
section
/-! DEFINITION. The Commit Engine and the Cue Unit (chapter 6): validation, switch, completion, the waiting order and the firing of cues. -/

namespace Sys2Proof.Machine

/-- The code of a staging bank in result words (R114). -/
def stagingCode (b : Staging) : Nat :=
  match b with
  | .s0 => 1
  | .s1 => 2

/-! ## The switch of a domain (R103, R104) -/

/-- A bank in force with domain d's entries and modes taken from P (R77, R103). -/
def switchedBank (d : Domain) (p active : Bank) : Bank where
  entries := Table.tab 144 fun x => if destDomain x = d then p.entries.get x else active.entries.get x
  modes := Table.tab 32 fun q => if quadDomain q = d then p.modes.get q else active.modes.get q

/-- A ramp begins for a destination at the switch of a running domain (R104). -/
def rampBegins (running : Bool) (p active : Bank) (x : Dest) : Bool :=
  running && carriedIn active x && carriedIn p x && p.entries.get x != active.entries.get x
    && (p.entries.get x).ramp != .none

/-- One destination at the switch of its domain, with ACTIVE still the old patch: its ramp ends, its old references are released or taken over by a new ramp, and its new ones are taken (R103, R104). -/
def switchDest (running : Bool) (p : Bank) (x : Dest) (s : State) : State :=
  let s1 := endRamp x s
  let old := s.active.entries.get x
  let s2 :=
    if rampBegins running p s.active x then
      s1.setRamp x (some ⟨old, rampLength (p.entries.get x).ramp, 0⟩)
    else s1.setTpt ((destPairs s.active x).foldl (fun t q => dropReference q t) s1.tpt)
  s2.setTpt ((destPairs p x).foldl (fun t q => addReference q t) s2.tpt)

/-- The built counts that restart at a switch: those of quads that come to embed (R36). -/
def restartBuilt (f : Feed) (p active : Bank) (o : Formatter) : Formatter :=
  { o with built := Table.tab 4 fun q =>
      if embeds (p.modes.get (outQuad f q)) && !embeds (active.modes.get (outQuad f q)) then 0 else o.built.get q }

/-- The switch of domain d to the snapshot P (R103). -/
def switchTo (d : Domain) (running : Bool) (p : Bank) (s : State) : State :=
  let s1 := walk ((List.finRange 16).map (domainDest d)) (switchDest running p) s
  let s2 := match domainFeed? d with
    | some f => s1.setFmt f (restartBuilt f p s.active (s1.fmt.get f))
    | none => s1
  { s2 with active := switchedBank d p s.active, tpt := freeUnused d s2.tpt }

/-- Domain d switches, if a commit is in flight in which it has not yet switched (R102, R103). -/
def switchDomain (d : Domain) (running : Bool) (s : State) : State :=
  match s.ce.inFlight with
  | none => s
  | some c =>
    if c.switched.get d then s
    else
      let s1 := switchTo d running c.snapshot s
      s1.setCe { s1.ce with inFlight := some { c with switched := c.switched.set d true } }

/-! ## Validation (R97 to R101) -/

/-- The snapshot a request is validated with (R97). -/
def snapshotFor (r : Requester) (s : State) : Bank :=
  match r with
  | .command b => stagingOf s b
  | .cue c => stagingOf s (s.cues.get c).bank
  | .failsafe => guardedOver s.guards s.active s.failsafe

/-- The guard check of a snapshot fails; a failsafe request is not checked (R98). -/
def guardFails (r : Requester) (p : Bank) (s : State) : Bool :=
  match r with
  | .failsafe => false
  | .command _ | .cue _ =>
    !(guardedDestDiffs s.guards p s.active).isEmpty || !(guardedQuadDiffs s.guards p s.active).isEmpty

/-- The pairs of the union that a commit is judged on: those held and those P needs (R99). -/
def unionPairs (p : Bank) (s : State) : List (RingNo × Domain) := (heldPairs s.tpt ++ bankPairs p).dedup

/-- The first of a list as a result word, or 255 (R115). -/
def firstOr255 {n : Nat} (l : List (Fin n)) : Word :=
  match l with
  | [] => 255
  | x :: _ => numWord x.val

/-- The end of a request at a refusal (R98, R99, R112, R113, R115): the last result, and the requester's answer, outcome or fault. -/
def refuseCommit (r : Requester) (result : CommitResult) (v : Verdict) (o : CueOutcome) (words : List Word) (s : State) : State :=
  let s1 := s.setCe { s.ce with lastSource := some r, lastResult := result }
  match r with
  | .command b => answerCommand v (numWord (stagingCode b) :: words) s1
  | .cue c => report .cueRefused (.cue c) (s1.setCue c { s1.cues.get c with outcome := o })
  | .failsafe => report .failsafeRefused (managementSource s1) s1

/-- One step of the allocation walk: a pair that no record holds takes the lowest-index FREE record, reserved (R100). -/
def allocateReserved (t : Table 64 TakePoint) (p : RingNo × Domain) : Table 64 TakePoint :=
  if t.cells.any fun tp => tp.holds p then t else allocate p true 0 t

/-- A record that is not FREE and whose pair P needs is marked reserved (R100). -/
def TakePoint.reservedFor (tp : TakePoint) (need : List (RingNo × Domain)) : TakePoint :=
  if tp.state ≠ .free ∧ (tp.ring, tp.domain) ∈ need then { tp with reserved := true } else tp

/-- The table after the allocation and the reservation for a snapshot (R100). -/
def reserveFor (p : Bank) (t : Table 64 TakePoint) : Table 64 TakePoint :=
  ((bankPairs p).foldl allocateReserved t).map fun tp => tp.reservedFor (bankPairs p)

/-- A feed domain that is not running at validation switches there (R101). -/
def switchIfStopped (f : Feed) (s : State) : State :=
  if domainRunning s (feedDomain f) then s else switchDomain (feedDomain f) false s

/-- The request in flight as validation makes it (R95, R101). -/
def newInFlight (r : Requester) (p : Bank) (s : State) : InFlight where
  snapshot := p
  requester := r
  fireLateness := match r with
    | .cue c => (s.cues.get c).fireLateness
    | .command _ | .failsafe => 0
  framesWaited := match r with
    | .cue c => (s.cues.get c).framesWaited
    | .command _ | .failsafe => 0
  dueMark := match r with
    | .cue c => (s.cues.get c).dueMark
    | .command _ | .failsafe => false
  switched := Table.fill 9 false
  allocated := (unionPairs p s).length - (heldPairs s.tpt).dedup.length

/-- An accepted validation: records are allocated and reserved, the CE enters SWITCHING, and the domains that do not run switch (R100, R101). -/
def acceptCommit (r : Requester) (p : Bank) (s : State) : State :=
  let s1 := (s.setTpt (reserveFor p s.tpt)).setCe { s.ce with inFlight := some (newInFlight r p s) }
  walk (List.finRange 8) switchIfStopped s1

/-- The validation of a request (R97 to R101). -/
def validate (r : Requester) (s : State) : State :=
  let p := snapshotFor r s
  if guardFails r p s then
    refuseCommit r .refusedGuarded .refusedGuarded .refusedGuarded
      [firstOr255 (guardedDestDiffs s.guards p s.active), firstOr255 (guardedQuadDiffs s.guards p s.active)] s
  else if Config.takePoints < (unionPairs p s).length then
    refuseCommit r .refusedTableFull .refusedTableFull .refusedTableFull
      [numWord (unionPairs p s).length, numWord (heldPairs s.tpt).length] s
  else acceptCommit r p s

/-! ## Requests and the waiting order (R96) -/

/-- A cue taken from the waiting order becomes IDLE (R111). -/
def leaveOrder (r : Requester) (s : State) : State :=
  match r with
  | .cue c => s.setCue c { s.cues.get c with state := .idle }
  | .command _ | .failsafe => s

/-- The CE takes the waiting order: requests are validated in turn until one is accepted or none is left (R96). -/
def takeWaiting (order : List Requester) (s : State) : State :=
  match order with
  | [] => s
  | r :: rest =>
    let s1 := validate r (leaveOrder r (s.setCe { s.ce with waiting := rest }))
    if s1.ce.inFlight.isSome then s1 else takeWaiting rest s1

/-- A commit request: validated at once when the CE is IDLE, else it joins the waiting order; a failsafe request that already waits absorbs another (R96). -/
def requestCommit (r : Requester) (s : State) : State :=
  if s.ce.inFlight.isNone then validate r s
  else if r = .failsafe ∧ r ∈ s.ce.waiting then s
  else s.setCe { s.ce with waiting := s.ce.waiting ++ [r] }

/-! ## Completion (R106, R112) -/

/-- The outcome of a cue's commit at completion (R112). -/
def cueCompletion (c : InFlight) : CueOutcome :=
  if c.fireLateness = 0 ∧ c.dueMark = false then .done
  else .late (min Config.countMax (c.fireLateness + c.framesWaited))

/-- The table after completion: no record is reserved, and one without references is FREE (R106). -/
def unreserve (t : Table 64 TakePoint) : Table 64 TakePoint :=
  t.map fun tp => TakePoint.freedIfUnused { tp with reserved := false }

/-- The records not FREE. -/
def usedRecords (t : Table 64 TakePoint) : Nat := (heldPairs t).length

/-- The requester of a completed commit is answered, or its outcome recorded (R106, R112, R115). -/
def endCommit (c : InFlight) (s : State) : State :=
  match c.requester with
  | .command b =>
    answerCommand .done
      [numWord (stagingCode b), s.ce.commitCount, numWord c.allocated, numWord (usedRecords s.tpt)] s
  | .cue i =>
    let s1 := s.setCue i { s.cues.get i with outcome := cueCompletion c }
    if cueCompletion c = .done then s1 else report .cueLate (.cue i) s1
  | .failsafe => s

/-- The commit completes (R106): marks are cleared, the count rises, the requester is answered, and the CE takes the waiting order. -/
def completeCommit (c : InFlight) (s : State) : State :=
  let ce := { s.ce with
    inFlight := none, commitCount := s.ce.commitCount + 1, lastSource := some c.requester, lastResult := .done }
  let s1 := endCommit c ((s.setTpt (unreserve s.tpt)).setCe ce)
  takeWaiting s1.ce.waiting s1

/-- When all nine domains have switched, the commit completes (R106). -/
def completeIfSwitched (s : State) : State :=
  match s.ce.inFlight with
  | none => s
  | some c => if c.switched.cells.all id then completeCommit c s else s

/-- A domain's switch at a frame boundary or at its stop, with the completion it may bring (R102, R106). -/
def switchAt (d : Domain) (running : Bool) (s : State) : State := completeIfSwitched (switchDomain d running s)

/-! ## Cues (R109 to R112) -/

/-- The frames of a day (R109). -/
def dayFrames (rate : Nat) : Nat := 86400 * rate

/-- The index of a stamp or label, whose frames field is taken as R − 1 when it is R or more (R109). -/
def stampIndex (rate : Nat) (t : Stamp) : Nat :=
  ((t.hours * 60 + t.minutes) * 60 + t.seconds) * rate + min t.frames (rate - 1)

/-- The lateness of a stamp against a label (R109). -/
def lateness (rate : Nat) (stamp label : Stamp) : Nat :=
  (stampIndex rate stamp + dayFrames rate - stampIndex rate label) % dayFrames rate

/-- A cue fires (R110, R111): it asks for its commit, or becomes DUE when the CE is SWITCHING. -/
def fireCue (c : CueNo) (late : Nat) (s : State) : State :=
  let q := { s.cues.get c with fireLateness := late, framesWaited := 0, dueMark := false }
  if s.ce.inFlight.isNone then requestCommit (.cue c) (s.setCue c { q with state := .idle })
  else requestCommit (.cue c) (s.setCue c { q with state := .due, dueMark := true })

/-- A stamp from feed f is evaluated against one cue (R110). -/
def evaluateCue (f : Feed) (rate : Nat) (t : Stamp) (c : CueNo) (s : State) : State :=
  let q := s.cues.get c
  if q.state = .armed ∧ q.feed = f ∧ lateness rate t q.label ≤ rate - 1 then fireCue c (lateness rate t q.label) s else s

/-- The CU takes a stamp of feed f, cue 0 first (R110). -/
def takeStamp (f : Feed) (rate : Nat) (t : Stamp) (s : State) : State := walk [0, 1] (evaluateCue f rate t) s

/-- A frame boundary of feed f that closes a frame raises the frames waited of the cues DUE on it (R111). -/
def countDue (f : Feed) (s : State) : State :=
  { s with cues := s.cues.map fun q =>
      if q.state = .due ∧ q.feed = f then { q with framesWaited := min Config.countMax (q.framesWaited + 1) } else q }

end Sys2Proof.Machine
end

