-- ==== Sys2Proof/Machine/Receivers.lean ====
section
/-! DEFINITION. The Feed Receivers' states and frame boundaries, and the start and stop of feed domains (chapters 1 and 3). -/

namespace Sys2Proof.Machine

/-! ## The start and stop of a feed domain (R15) -/

/-- Domain f starts: phase 0, built counts 0, its take points to FILLING, a fresh frame for the CM (R15, R36, R40, R68, R144). -/
def startDomain (f : Feed) (s : State) : State :=
  let o := s.fmt.get f
  freshRound (feedDomain f) (startTakePoints (feedDomain f)
    (s.setFmt f { o with phase := 0, built := Table.fill 4 0, firstSent := Table.fill 4 false, sets := [] }))

/-- Domain f stops: phase 0, its ramps end, its clip marks and the CM's mark are cleared, a waiting commit switches it, and a path check of it is aborted (R15, R40, R102, R128, R131, R143, R152). -/
def stopDomain (f : Feed) (s : State) : State :=
  let s1 := s.setFmt f { s.fmt.get f with phase := 0, sets := [] }
  let s2 := stopRound (feedDomain f) (clearClips (feedDomain f) (endRamps (feedDomain f) s1))
  pathCheckStop f (switchAt (feedDomain f) false s2)

/-! ## LOCKED -/

/-- The quads of a feed when it leaves LOCKED: UNKNOWN with empty-frame count 0 (R7). -/
def QuadTrack.left (q : QuadTrack) : QuadTrack := { q with state := .unknown, empty := 0, carried := false }

/-- The effects of leaving LOCKED: the feed's rings starve, its watched tracks and its quads become UNKNOWN (R7, R53, R139). -/
def leaveLocked (f : Feed) (s : State) : State :=
  let s1 := walk (List.finRange 4) (fun q => starveRing (feedRing f q)) s
  let s2 := resetFeedTracks f s1
  s2.setFr f { s2.fr.get f with quads := (s2.fr.get f).quads.map QuadTrack.left }

/-- A quad at the entry into LOCKED: UNKNOWN, with its sequence and cadence tracking cleared (R6, R23, R45). -/
def QuadTrack.entered (q : QuadTrack) : QuadTrack :=
  { q with state := .unknown, empty := 0, carried := false, basePending := true, tracker := Tracker.rebase }

/-- FR f enters LOCKED: its four rings are reset and its quads' tracking is cleared (R6). -/
def enterLocked (f : Feed) (s : State) : State :=
  let s1 := s.setFr f { s.fr.get f with state := .locked, quads := (s.fr.get f).quads.map QuadTrack.entered }
  walk (List.finRange 4) (fun q => resetRing (feedRing f q)) s1

/-! ## The parts of a boundary -/

/-- A quad goes ABSENT: its ring starves, its watched tracks are reset, and its tracking is cleared (R10, R23, R45). -/
def quadAbsent (f : Feed) (q : Quad) (s : State) : State :=
  let s1 := resetTracksOfRing (feedRing f q) (starveRing (feedRing f q) s)
  let r := s1.fr.get f
  s1.setFr f { r with quads := r.quads.modify q fun k =>
    { k with state := .absent, basePending := true, tracker := Tracker.rebase } }

/-- One quad at a boundary that closes a frame in LOCKED: its empty-frame count, and its absence when the count reaches 2 (R10). -/
def closeQuadFrame (f : Feed) (q : Quad) (s : State) : State :=
  let r := s.fr.get f
  let k := r.quads.get q
  let empty := if k.carried then k.empty else min 2 (k.empty + 1)
  let s1 := s.setFr f { r with quads := r.quads.set q { k with empty := empty, carried := false } }
  if k.carried = false ∧ empty = 2 ∧ k.state ≠ .absent then quadAbsent f q s1 else s1

/-- The frame that closed is mismatched for a tracker with frame phase k (R47). -/
def cadenceMismatch (fm : Format) (t : Tracker) (k : Nat) : Bool :=
  decide (cadenceLength fm ≤ k) || t.total != frameSets fm k ||
    (match t.expected with
      | none => false
      | some e => e != k) || t.conflict

/-- A cadence tracker after the frame-end check (R47). DESIGN CHOICE (log entry 38): one that the check puts in REBASE holds no frame phase, total or conflict, as on the occasions that R45 lists. -/
def trackerClosed (fm : Format) (t : Tracker) : Tracker :=
  if t.tracking then
    match t.framePhase with
    | none => Tracker.rebase
    | some k => if cadenceMismatch fm t k then Tracker.rebase else ⟨true, some (nextPhase fm k), none, 0, false⟩
  else t

/-- The frame-end check records CADENCE MISMATCH (R47). -/
def trackerFaults (fm : Format) (t : Tracker) : Bool :=
  t.tracking && (match t.framePhase with
    | none => false
    | some k => cadenceMismatch fm t k)

/-- The cadence tracker of one quad is judged at a boundary (R47). -/
def judgeCadence (f : Feed) (fm : Format) (q : Quad) (s : State) : State :=
  let r := s.fr.get f
  let t := (r.quads.get q).tracker
  let s1 := s.setFr f { r with quads := r.quads.modify q fun k => { k with tracker := trackerClosed fm t } }
  if trackerFaults fm t then report .cadenceMismatch (.inputQuad f q) s1 else s1

/-- The settle count at a boundary that closes a matching frame, and the entry into LOCKED (R6). -/
def settleStep (f : Feed) (s : State) : State :=
  let r := s.fr.get f
  let s1 := s.setFr f { r with settleRemaining := r.settleRemaining - 1 }
  if r.settleRemaining - 1 = 0 then enterLocked f s1 else s1

/-- One part of a boundary of feed f; `fm` is the detected format when the boundary arrived. DESIGN CHOICE (log entry 37): a part that records several faults records them one right after another, and no other part's fault comes between. -/
def boundaryPart (f : Feed) (fm : Format) (p : Part) (s : State) : State :=
  match p with
  | .takePoints => judgeTakePoints (feedDomain f) s
  | .switch => switchAt (feedDomain f) true s
  | .clips => handOverClips (feedDomain f) s
  | .presence t => judgeFeedTrack f t s
  | .absence q => closeQuadFrame f q s
  | .cadence q => judgeCadence f fm q s
  | .dueCount => countDue f s
  | .pathCheck => pathCheckBoundary f s
  | .settle => settleStep f s
  | .leaveLocked => leaveLocked f s
  | .stop => stopDomain f s
  | .silence | .emission | .lineWrite _ | .lineOffer _ => s

/-- Parts taken in the order the operand gives (log entry 3). -/
def runParts (f : Feed) (fm : Format) (order parts : List Part) (s : State) : State :=
  walk (schedule order parts) (boundaryPart f fm) s

/-! ## Boundaries -/

/-- The parts of a boundary at which the domain runs on, by the FR's state (R6, R8, R10, R47, R64, R102, R111, R131, R136, R148). -/
def matchedParts (st : FrState) : List Part :=
  let all : List Part := [.takePoints, .switch, .clips, .pathCheck, .dueCount]
  match st with
  | .locked =>
    all ++ (List.finRange 4).map .cadence ++ (List.finRange 16).map .presence ++ (List.finRange 4).map .absence
  | .settling => all ++ [.settle]
  | .off | .seeking | .wrongFormat => all

/-- The frame that a boundary opens in a running domain: the next phase, no built packet yet, a fresh frame for the CM (R35, R40, R144). -/
def openFrame (f : Feed) (fm : Format) (s : State) : State :=
  let o := s.fmt.get f
  freshRound (feedDomain f)
    (s.setFmt f { o with phase := nextPhase fm o.phase, firstSent := Table.fill 4 false, sets := [] })

/-- A boundary that closes a frame matching the detected format (R6, R8, R15). -/
def matchedBoundary (f : Feed) (fm : Format) (order : List Part) (s : State) : State :=
  runParts f fm order (matchedParts (s.fr.get f).state) (openFrame f fm s)

/-- The parts of a loss of lock: the effects of leaving LOCKED where the FR was LOCKED, and the stop (R7). -/
def lossParts (st : FrState) : List Part := if st = .locked then [.leaveLocked, .stop] else [.stop]

/-- A running FR goes to SEEKING: LOCK LOST is recorded, the domain stops, and the candidate is what the closed frame matched (R4, R7). -/
def loseLock (f : Feed) (fm : Format) (candidate : Option Format) (order : List Part) (extra : List Part) (s : State) : State :=
  let r := s.fr.get f
  let s1 := s.setFr f { r with state := .seeking, detected := none, candidate := candidate }
  runParts f fm order (lossParts r.state ++ extra) (report .lockLost (.inputFeed f) s1)

/-- An FR in SEEKING identifies format fm: SETTLING, and on into LOCKED when there is nothing to settle, or WRONG FORMAT; the domain starts (R5, R6). -/
def identify (f : Feed) (fm : Format) (s : State) : State :=
  let r := s.fr.get f
  if r.expected = none ∨ r.expected = some fm then
    let s1 := startDomain f (s.setFr f { r with
      state := .settling, detected := some fm, candidate := none, settleRemaining := r.settleFrames })
    if r.settleFrames = 0 then enterLocked f s1 else s1
  else
    report .formatMismatch (.inputFeed f)
      (startDomain f (s.setFr f { r with state := .wrongFormat, detected := some fm, candidate := none }))

/-- A boundary in SEEKING that closes a whole frame (R5). -/
def seekBoundary (f : Feed) (m : Option Format) (s : State) : State :=
  let r := s.fr.get f
  match m with
  | none => s.setFr f { r with candidate := none }
  | some fm => if r.candidate = some fm then identify f fm s else s.setFr f { r with candidate := some fm }

/-- A whole frame closes: it is judged by the FR's state (R5 to R8). -/
def closeFrame (f : Feed) (m : Option Format) (order : List Part) (s : State) : State :=
  let r := s.fr.get f
  if runningState r.state then
    match r.detected with
    | none => s
    | some fm =>
      if m = some fm then matchedBoundary f fm order s else loseLock f fm m order [.dueCount] s
  else countDue f (seekBoundary f m s)

/-- A frame mark arrives at FR f (R3): it closes a whole frame when the boundary before it arrived while the FR was not OFF, and opens the next. -/
def frameMark (f : Feed) (period : Time) (order : List Part) (s : State) : State :=
  let r := s.fr.get f
  if r.state = .off then s
  else
    let m := matchFormat r.lineCount period
    let s1 := s.setFr f { r with lineCount := 1, frameOpen := true }
    if r.frameOpen then closeFrame f m order s1 else s1

/-- No line record for two nominal line periods: a running FR goes to SEEKING (R4). -/
def lineGap (f : Feed) (order : List Part) (s : State) : State :=
  let r := s.fr.get f
  if runningState r.state then
    match r.detected with
    | none => s
    | some fm => loseLock f fm none order [] s
  else s

end Sys2Proof.Machine
end

