-- ==== Sys2Proof/Machine/ReferenceUnit.lean ====
section
/-! DEFINITION. The Reference Unit, the set ticks and the frame ends of domain 8, and the silence timer that counts them (chapters 1.3 and 11.6). -/

namespace Sys2Proof.Machine

/-! ## Silence timer -/

/-- The silence time in seconds (R168). -/
def silenceSeconds (t : SilenceTime) : Nat :=
  match t with
  | .off => 0
  | .s2 => 2
  | .s10 => 10
  | .s60 => 60

/-- The timer stands RUNNING at a count of 0: its expiry is due (R169; log entry 6). -/
def silenceDue (s : State) : Bool := s.mgmt.timerRunning && s.mgmt.remaining == 0

/-- The timer expires: CONTROL SILENCE is recorded, the timer stops, and with action FAILSAFE a failsafe request is made (R113, R169). -/
def expireSilence (s : State) : State :=
  let s1 := report .controlSilence (managementSource s) (s.setMgmt { s.mgmt with timerRunning := false, remaining := 0 })
  match s.mgmt.silenceAction with
  | .hold => s1
  | .failsafe => requestCommit .failsafe s1

/-- An expiry that is due is taken (R169; log entry 6). -/
def takeExpiry (s : State) : State := if silenceDue s then expireSilence s else s

/-- The timer restarts from the silence time (R168); an expiry that was due is taken first (R169). -/
def restartTimer (s : State) : State :=
  let s1 := takeExpiry s
  match s1.mgmt.silenceTime with
  | .off => s1.setMgmt { s1.mgmt with timerRunning := false, remaining := 0 }
  | .s2 | .s10 | .s60 =>
    s1.setMgmt { s1.mgmt with
      timerRunning := true, remaining := silenceSeconds s1.mgmt.silenceTime * rateOf s1.ru.format }

/-- A domain-8 frame end lowers a RUNNING timer's count by one (R168). -/
def countSilence (s : State) : State :=
  if s.mgmt.timerRunning then s.setMgmt { s.mgmt with remaining := s.mgmt.remaining - 1 } else s

/-! ## Domain-8 frames -/

/-- The sample sets the frame of domain 8 carries: S(k) of the reference format (R11). -/
def frameTicks (r : Reference) : Nat := frameSets r.format r.phase

/-- The RU at a domain-8 frame end: the count rises, a pending format comes into force, the phase advances or becomes 0, and a new frame begins (R11, R14, R41). -/
def Reference.frameEnded (r : Reference) (realign : Bool) : Reference :=
  { r with
    frameCount := r.frameCount + 1
    format := r.pendingFormat.getD r.format
    pendingFormat := none
    phase := if r.pendingFormat.isSome || realign then 0 else nextPhase r.format r.phase
    ticks := 0
    sinceFrame := 0 }

/-- The RU as a domain-8 frame end leaves it, and the fresh frame for the CM (R11, R144). -/
def turnFrame8 (realign : Bool) (s : State) : State := freshRound domain8 (s.setRu (s.ru.frameEnded realign))

/-- The parts of a domain-8 frame end (R11, R64, R102, R131, R137, R168). -/
def frameParts : List Part := [.takePoints, .switch, .clips] ++ (List.finRange 16).map .presence ++ [.silence]

/-! ## Set ticks -/

/-- The set of line quad n at a tick: line inputs 4n to 4n + 3 with all four flags set (R49). -/
def lineQuadSet (lines : LineSet) (n : LineQuad) : SampleSet :=
  ⟨Table.tab 4 fun p => lines.get (quadTrack n p), Table.fill 4 true⟩

/-- The LP's write of one line ring at a tick (R49). -/
def writeLineRing (lines : LineSet) (n : LineQuad) (s : State) : State :=
  writeEvent (lineRing n) [lineQuadSet lines n] s

/-- A line input of a tick offered to its watched track (R135). -/
def offerLine (lines : LineSet) (l : Fin 16) (s : State) : State :=
  s.setTracks (s.watch.tracks.modify (lineTrack l) fun w => w.offered (lines.get l).toInt.natAbs)

/-- The emission of domain 8 at a tick, which is one of the frame's ticks (R11). -/
def emitTick (s : State) : State :=
  let s1 := emission domain8 s
  s1.setRu { s1.ru with ticks := s1.ru.ticks + 1 }

/-- What one set tick brings: the writes of the four line rings, one emission, and the offers of the line inputs (R11, R69, R135). -/
def tickParts : List Part :=
  (List.finRange 4).map .lineWrite ++ [.emission] ++ (List.finRange 16).map .lineOffer

/-! ## One instant of domain 8 -/

/-- One part of an instant of domain 8, taken whole like a part of a feed's boundary (log entry 37); `carried` says that a frame that ends carried a set, and `lines` are the line inputs of the tick the part belongs to. -/
def instantPart (carried : Bool) (lines : LineSet) (p : Part) (s : State) : State :=
  match p with
  | .emission => emitTick s
  | .lineWrite n => writeLineRing lines n s
  | .lineOffer l => offerLine lines l s
  | .takePoints => judgeTakePoints domain8 s
  | .switch => switchAt domain8 true s
  | .clips => handOverClips domain8 s
  | .presence l => if carried then judgeTrack (lineTrack l) s else s
  | .silence => countSilence s
  | .absence _ | .cadence _ | .dueCount | .pathCheck | .settle | .leaveLocked | .stop => s

/-- Parts of an instant with these ticks taken in turn: the first time a part is taken it is that of the first tick, the next time that of the second. -/
def takeParts (ticks : List LineSet) (carried : Bool) (taken parts : List Part) (s : State) : State :=
  match parts with
  | [] => s
  | p :: rest =>
    takeParts ticks carried (p :: taken) rest (instantPart carried (ticks.getD (taken.count p) s.lineIn) p s)

/-- The writes and offers that an order of a frame end names, which are held over to it (R66, R135). -/
def heldOver (frameOrder : List Part) : List Part :=
  frameOrder.filter fun p =>
    match p with
    | .lineWrite _ | .lineOffer _ => true
    | _ => false

/-- What the ticks of an instant bring before the frame end, in the order the operand gives (R69). -/
def beforeFrameEnd (ticks : List LineSet) (order frameOrder : List Part) : List Part :=
  schedule order ((ticks.flatMap fun _ => tickParts).diff (heldOver frameOrder))

/-- What the ticks of an instant bring with the frame end or after it: what the order of the frame end names (R66, R135). -/
def withFrameEnd (ticks : List LineSet) (order frameOrder : List Part) : List Part :=
  (ticks.flatMap fun _ => tickParts).diff (beforeFrameEnd ticks order frameOrder)

/-- The set ticks of one instant: the line inputs are presented, and what the ticks bring is taken, but for what is held over (R11, R12, R69). -/
def runTicks (ticks : List LineSet) (order frameOrder : List Part) (s : State) : State :=
  takeParts ticks true [] (beforeFrameEnd ticks order frameOrder) { s with lineIn := ticks.getLastD s.lineIn }

/-- Set ticks that no frame end follows; what was held over is taken after the rest (R11, R69). -/
def runningTicks (ticks : List LineSet) (order frameOrder : List Part) (s : State) : State :=
  takeParts ticks true (beforeFrameEnd ticks order frameOrder)
    (schedule frameOrder (withFrameEnd ticks order frameOrder)) (runTicks ticks order frameOrder s)

/-- A domain-8 frame end, after the set ticks of its instant: the RU turns to the next frame, and the parts of the frame end are taken, with what was held over among them (R11, R12, R66, R135). -/
def endingTicks (realign : Bool) (ticks : List LineSet) (order frameOrder : List Part) (s : State) : State :=
  let s1 := runTicks ticks order frameOrder s
  takeParts ticks (decide (0 < s1.ru.ticks)) (beforeFrameEnd ticks order frameOrder)
    (schedule frameOrder (frameParts ++ withFrameEnd ticks order frameOrder)) (turnFrame8 realign s1)

/-- The line inputs at the n ticks still owed, which are emitted at one instant: those the operand gives, and where it gives fewer the line inputs as last presented (R12; log entry 26). -/
def owedTicks (n : Nat) (owed : List LineSet) (s : State) : List LineSet :=
  (owed ++ List.replicate n (owed.getLastD s.lineIn)).take n

/-- The line inputs at the ticks that the frame still owes (R12). -/
def owedBy (owed : List LineSet) (s : State) : List LineSet := owedTicks (frameTicks s.ru - s.ru.ticks) owed s

/-- Time passes for the RU (R11, R12). -/
def passTime (elapsed : Time) (s : State) : State :=
  s.setRu { s.ru with sincePulse := s.ru.sincePulse + elapsed, sinceFrame := s.ru.sinceFrame + elapsed }

/-- A set tick of domain 8 (R11, R12): in LOCKED none follows once S(k) have been emitted; in FREE the tick that completes S(k) ends the frame. DESIGN CHOICE (log entry 15): in FREE a frame whose ticks are already complete ends before the tick, which is the first of the next. -/
def setTickEvent (elapsed : Time) (lines : LineSet) (order frameOrder : List Part) (s : State) : State :=
  let s0 := passTime elapsed s
  if s0.ru.state = .locked ∧ frameTicks s0.ru ≤ s0.ru.ticks then s0
  else
    let s1 := if frameTicks s0.ru ≤ s0.ru.ticks then endingTicks false [] [] frameOrder s0 else s0
    if s1.ru.state = .free ∧ frameTicks s1.ru ≤ s1.ru.ticks + 1 then endingTicks false [lines] order frameOrder s1
    else runningTicks [lines] order frameOrder s1

/-! ## Pulses and time-outs -/

/-- A pulse restarts the time since the last pulse (R12). -/
def pulseSeen (s : State) : State := s.setRu { s.ru with sincePulse := 0 }

/-- A pulse of the house reference (R12, R14): in FREE it takes the RU to LOCKED and realigns domain 8; in LOCKED it ends the frame, its owed ticks emitted first, when half a nominal period has passed since the frame began, and ends nothing before that. -/
def pulseEvent (elapsed : Time) (owed : OwedTicks) (frameOrder : List Part) (s : State) : State :=
  let s0 := passTime elapsed s
  match s0.ru.state with
  | .free =>
    let s1 := endingTicks true [] [] frameOrder (s0.setRu { s0.ru with state := .locked })
    pulseSeen (report .referenceRestored .reference s1)
  | .locked =>
    if nominalPeriod s0.ru.format ≤ 2 * s0.ru.sinceFrame then
      pulseSeen (endingTicks false (owedBy owed.lines s0) owed.order frameOrder s0)
    else pulseSeen s0

/-- One and a half nominal periods without a pulse since the frame began: in LOCKED the frame ends by the internal clock, having emitted its S(k) ticks, and the RU stays LOCKED (R12). -/
def waitTimeoutEvent (elapsed : Time) (owed : OwedTicks) (frameOrder : List Part) (s : State) : State :=
  let s0 := passTime elapsed s
  if s0.ru.state = .locked ∧ 3 * nominalPeriod s0.ru.format ≤ 2 * s0.ru.sinceFrame then
    endingTicks false (owedBy owed.lines s0) owed.order frameOrder s0
  else s0

/-- Two nominal periods since the last pulse: in LOCKED the RU goes to FREE and REFERENCE LOST is recorded; the frame in progress goes on (R13). -/
def referenceLostEvent (elapsed : Time) (s : State) : State :=
  let s0 := passTime elapsed s
  if s0.ru.state = .locked ∧ 2 * nominalPeriod s0.ru.format ≤ s0.ru.sincePulse then
    report .referenceLost .reference (s0.setRu { s0.ru with state := .free })
  else s0

end Sys2Proof.Machine
end

