-- ==== Sys2Proof/Machine/Operands.lean ====
section
/-! DEFINITION. The forms of argument words and result words: codes read with their ranges, codes written (R16, R83, R114, R170). -/

namespace Sys2Proof.Machine

/-- What taking a command comes to: an outcome with its result words at once, or a command that stays in flight (R164). -/
inductive Act where
  | answered (v : Verdict) (words : List Word) (s : State)
  | inFlight (s : State)

/-- REFUSED ARGUMENT: no result words, and nothing changed (R165). -/
def refusedArgument (s : State) : Act := .answered .refusedArgument [] s

/-! ## Arguments -/

/-- An expected format: 0 to 10, or 255 for AUTO (R16, R17). -/
def expectedArg? (w : Word) : Option (Option Format) :=
  if w = 255 then some none else (w.index? 11).map some

/-- A bank code, 0 to 3 (R83). -/
def bankArg? (w : Word) : Option BankCode :=
  if w = 0 then some .active else if w = 1 then some .s0 else if w = 2 then some .s1 else if w = 3 then some .f else none

/-- The code of a staging bank, 1 or 2 (R84, R86, R114). -/
def stagingArg? (w : Word) : Option Staging := if w = 1 then some .s0 else if w = 2 then some .s1 else none

/-- A quad mode, 0 to 3 (R80, R83). -/
def modeArg? (w : Word) : Option QuadMode :=
  if w = 0 then some .pass else if w = 1 then some .remove else if w = 2 then some .embed24
  else if w = 3 then some .embed20 else none

/-- A source or partner source: 0 to 143, or 255 for NONE or absent (R83). -/
def sourceArg? (w : Word) : Option (Option Source) :=
  if w = 255 then some none else (w.index? 144).map fun i => some (sourceOfNumber i)

/-- A ramp code, 0 to 3 (R74, R84). -/
def rampArg? (w : Word) : Option RampCode :=
  if w = 0 then some .none else if w = 1 then some .short else if w = 2 then some .medium
  else if w = 3 then some .long else none

/-- A silence time, 0 to 3 (R170). -/
def silenceTimeArg? (w : Word) : Option SilenceTime :=
  if w = 0 then some .off else if w = 1 then some .s2 else if w = 2 then some .s10 else if w = 3 then some .s60 else none

/-- A silence action, 0 or 1 (R170). -/
def silenceActionArg? (w : Word) : Option SilenceAction :=
  if w = 0 then some .hold else if w = 1 then some .failsafe else none

/-! ## Result words -/

/-- An FR state's code (R16). -/
def frStateCode (s : FrState) : Word :=
  match s with
  | .off => 0
  | .seeking => 1
  | .settling => 2
  | .locked => 3
  | .wrongFormat => 4

/-- A quad state's code (R16). -/
def quadStateCode (s : QuadState) : Word :=
  match s with
  | .unknown => 0
  | .present => 1
  | .absent => 2

/-- A format's code, 255 for AUTO or NONE (R16). -/
def formatWord (f : Option Format) : Word :=
  match f with
  | none => 255
  | some c => numWord c.val

/-- An RU state's code (R16). -/
def ruStateCode (s : RuState) : Word :=
  match s with
  | .free => 0
  | .locked => 1

/-- A take point state's code (R72). -/
def tpStateCode (s : TpState) : Word :=
  match s with
  | .free => 0
  | .filling => 1
  | .running => 2
  | .starved => 3

/-- A bank's code (R83). -/
def bankCode (b : BankCode) : Word :=
  match b with
  | .active => 0
  | .s0 => 1
  | .s1 => 2
  | .f => 3

/-- A staging bank as one of the four banks (R77). -/
def stagingBank (b : Staging) : BankCode :=
  match b with
  | .s0 => .s0
  | .s1 => .s1

/-- A quad mode's code (R80). -/
def modeCode (m : QuadMode) : Word :=
  match m with
  | .pass => 0
  | .remove => 1
  | .embed24 => 2
  | .embed20 => 3

/-- A source's word, 255 for NONE or absent (R83). -/
def sourceWord (src : Option Source) : Word :=
  match src with
  | none => 255
  | some x => numWord (sourceNumber x).val

/-- A ramp code's word (R74). -/
def rampWord (c : RampCode) : Word :=
  match c with
  | .none => 0
  | .short => 1
  | .medium => 2
  | .long => 3

/-- A presence state's code (R142). -/
def presenceCode (p : Presence) : Nat :=
  match p with
  | .unknown => 0
  | .present => 1
  | .silent => 2

/-- A cue state's code (R114). -/
def cueStateCode (s : CueState) : Word :=
  match s with
  | .idle => 0
  | .armed => 1
  | .due => 2

/-- A cue outcome's code (R114). -/
def cueOutcomeCode (o : CueOutcome) : Word :=
  match o with
  | .none => 0
  | .done => 1
  | .late _ => 2
  | .refusedGuarded => 3
  | .refusedTableFull => 4

/-- The two words of a 32-bit count, the upper 16 bits first (R19, R159). -/
def twoWords (c : BitVec 32) : List Word := [c.extractLsb' 16 16, c.extractLsb' 0 16]

end Sys2Proof.Machine
end

