-- ==== Sys2Proof/Machine/CheckCommands.lean ====
section
/-! DEFINITION. The commands of the Level Watch and of the checkers: SET PRESENCE, START PATH CHECK, SET MIXER CHECK (R141, R142, R146, R148). -/

namespace Sys2Proof.Machine

/-- The presence states of eight watched tracks in one word, the lowest track in the lowest bits (R142). -/
def presenceWord (ts : List WatchedTrack) : Word :=
  BitVec.ofNat 16 (ts.foldr (fun t acc => presenceCode t.presence + 4 * acc) 0)

/-- The 21 result words of SET PRESENCE (R142). -/
def presenceWords (w : Watch) : List Word :=
  [numWord (w.threshold / 65536), numWord (w.threshold % 65536), numWord w.frames] ++
    (List.range 18).map fun k => presenceWord ((w.tracks.cells.drop (8 * k)).take 8)

/-- A presence-frames word held to 1 to 255 (R141). -/
def heldFrames (c : Word) : Nat := max 1 (min Config.byteMax c.toNat)

/-- A requested threshold held to 8388607 (R141). -/
def heldThreshold (a b : Word) : Nat := min 8388607 (a.toNat * 65536 + b.toNat)

/-- SET PRESENCE (R141, R142). -/
def actSetPresence (args : List Word) (s : State) : Act :=
  match args with
  | [] => .answered .done (presenceWords s.watch) s
  | [a, b, c] =>
    let w := { s.watch with threshold := heldThreshold a b, frames := heldFrames c }
    let clamped := w.threshold ≠ a.toNat * 65536 + b.toNat ∨ w.frames ≠ c.toNat
    .answered (if clamped then .clamped else .done) (presenceWords w) { s with watch := w }
  | _ => refusedArgument s

/-- START PATH CHECK (R148, R152): aborted at once when the domain is not running, else the PC waits for the domain's next frame boundary and the command stays in flight. DESIGN CHOICE (log entry 33): the tallies, flags, k and S(k) are cleared here already, where the rules say only that they are at the boundary that opens the checked frame; no answer shows it. -/
def actStartPathCheck (args : List Word) (s : State) : Act :=
  match args with
  | [a] =>
    match a.index? 8 with
    | some f =>
      let p : PathChecker := { PathChecker.start with feed := f }
      if domainRunning s (feedDomain f) then .inFlight (s.setPc { p with state := .waiting })
      else .answered .aborted (abortWords p) (s.setPc p)
    | none => refusedArgument s
  | _ => refusedArgument s

/-- The nineteen result words of SET MIXER CHECK (R146). -/
def mixerCheckWords (c : CheckMixer) : List Word :=
  flagWord c.inject :: c.rounds.cells.flatMap fun r => [r.count, numWord r.cursor]

/-- SET MIXER CHECK (R146). -/
def actSetMixerCheck (args : List Word) (s : State) : Act :=
  match args with
  | [] => .answered .done (mixerCheckWords s.cm) s
  | [a] =>
    match a.flag? with
    | some on =>
      let c := { s.cm with inject := on }
      .answered .done (mixerCheckWords c) { s with cm := c }
    | none => refusedArgument s
  | _ => refusedArgument s

end Sys2Proof.Machine
end

