-- ==== Sys2Proof/Machine/CommitCommands.lean ====
section
/-! DEFINITION. The commands for commits and cues: COMMIT, ARM CUE, DISARM CUE, READ CUES (R114 to R118). -/

namespace Sys2Proof.Machine

/-- COMMIT (R115): an accepted command makes its request and stays in flight until its commit completes or is refused. -/
def actCommit (args : List Word) (s : State) : Act :=
  match args with
  | [a] =>
    match stagingArg? a with
    | some b => .inFlight (requestCommit (.command b) s)
    | none => refusedArgument s
  | _ => refusedArgument s

/-- The nine result words of a cue (R118). -/
def cueWords (q : Cue) : List Word :=
  [cueStateCode q.state, numWord (stagingCode q.bank), numWord q.feed.val, numWord q.label.hours, numWord q.label.minutes,
    numWord q.label.seconds, numWord q.label.frames, cueOutcomeCode q.outcome,
    numWord (match q.state, q.outcome with
      | .due, _ => q.framesWaited
      | _, .late n => n
      | _, _ => 0)]

/-- A cue's request removed from the waiting order, where it waits (R116, R117). -/
def withdrawCue (c : CueNo) (s : State) : State :=
  s.setCe { s.ce with waiting := s.ce.waiting.filter fun r => r != .cue c }

/-- The label that words 4 to 7 of ARM CUE describe (R116). -/
def labelArgs? (h m s f : Word) : Option Stamp :=
  if h.toNat < 24 ∧ m.toNat < 60 ∧ s.toNat < 60 ∧ f.toNat < 60 then some ⟨h.toNat, m.toNat, s.toNat, f.toNat⟩ else none

/-- ARM CUE (R116). -/
def actArmCue (args : List Word) (s : State) : Act :=
  match args with
  | [a, b, f, h, m, sec, fr] =>
    match a.index? 2, stagingArg? b, f.index? 8, labelArgs? h m sec fr with
    | some c, some bank, some feed, some label =>
      let q : Cue := { s.cues.get c with
        state := .armed, bank := bank, feed := feed, label := label, fireLateness := 0, framesWaited := 0, dueMark := false }
      .answered .done (cueWords q) ((withdrawCue c s).setCue c q)
    | _, _, _, _ => refusedArgument s
  | _ => refusedArgument s

/-- DISARM CUE (R117). -/
def actDisarmCue (args : List Word) (s : State) : Act :=
  match args with
  | [a] =>
    match a.index? 2 with
    | some c =>
      let q : Cue := { s.cues.get c with state := .idle }
      .answered .done (cueWords q) ((withdrawCue c s).setCue c q)
    | none => refusedArgument s
  | _ => refusedArgument s

/-- READ CUES (R118). -/
def actReadCues (args : List Word) (s : State) : Act :=
  match args with
  | [] => .answered .done (s.cues.cells.flatMap cueWords) s
  | _ => refusedArgument s

end Sys2Proof.Machine
end

