-- ==== Sys2Proof/Machine/FeedCommands.lean ====
section
/-! DEFINITION. The commands for feeds and reference: SET FEED, READ FEED, SET REFERENCE (R16 to R19). -/

namespace Sys2Proof.Machine

/-- The eleven result words of READ FEED (R18). -/
def feedWords (s : State) (f : Feed) : List Word :=
  let r := s.fr.get f
  [flagWord r.enabled, frStateCode r.state, formatWord r.expected, numWord r.settleFrames, numWord r.settleRemaining,
    formatWord r.detected] ++ (r.quads.cells.map fun q => quadStateCode q.state) ++ [numWord (s.fmt.get f).phase]

/-- SET FEED with enable 0: from any state but OFF the FR goes to OFF (R17). -/
def disableFeed (f : Feed) (s : State) : State :=
  let r := s.fr.get f
  let s1 := s.setFr f { r with state := .off, detected := none, candidate := none, frameOpen := false }
  match r.state with
  | .off => s
  | .seeking => s1
  | .settling | .wrongFormat => stopDomain f s1
  | .locked => stopDomain f (leaveLocked f s1)

/-- A running FR whose new expected format is another than the detected one goes to WRONG FORMAT, and FORMAT MISMATCH is recorded (R17). -/
def toWrongFormat (f : Feed) (s : State) : State :=
  report .formatMismatch (.inputFeed f) (s.setFr f { s.fr.get f with state := .wrongFormat })

/-- SET FEED with enable 1, the new expected format and settle frames already stored (R17). -/
def enableFeed (f : Feed) (s : State) : State :=
  let r := s.fr.get f
  let agrees := r.expected = none ∨ r.expected = r.detected
  match r.state with
  | .off => s.setFr f { r with state := .seeking, candidate := none, frameOpen := false }
  | .seeking => s
  | .settling => if agrees then s.setFr f { r with settleRemaining := r.settleFrames } else toWrongFormat f s
  | .locked => if agrees then s else leaveLocked f (toWrongFormat f s)
  | .wrongFormat => if agrees then s.setFr f { r with state := .settling, settleRemaining := r.settleFrames } else s

/-- The effect of an accepted SET FEED (R17). -/
def setFeedTo (f : Feed) (enable : Bool) (expected : Option Format) (settle : Nat) (s : State) : State :=
  let s1 := s.setFr f { s.fr.get f with enabled := enable, expected := expected, settleFrames := settle }
  if enable then enableFeed f s1 else disableFeed f s1

/-- SET FEED (R17). -/
def actSetFeed (args : List Word) (s : State) : Act :=
  match args with
  | [a, b, c, d] =>
    match a.index? 8, b.flag?, expectedArg? c, d.index? 16 with
    | some f, some enable, some expected, some settle =>
      if enable = false ∧ f = s.mgmt.controlFeed then refusedArgument s
      else
        let s1 := setFeedTo f enable expected settle.val s
        .answered .done (feedWords s1 f) s1
    | _, _, _, _ => refusedArgument s
  | _ => refusedArgument s

/-- READ FEED (R18). -/
def actReadFeed (args : List Word) (s : State) : Act :=
  match args with
  | [a] =>
    match a.index? 8 with
    | some f => .answered .done (feedWords s f) s
    | none => refusedArgument s
  | _ => refusedArgument s

/-- The pending format after SET REFERENCE of a code: NONE when the code is the reference format already, else the code (R19). -/
def pendingAfter (r : Reference) (f : Format) : Option Format := if f = r.format then none else some f

/-- The five result words of SET REFERENCE (R19), which READ DEVICE also reports (R171). -/
def referenceWords (s : State) : List Word :=
  [ruStateCode s.ru.state, formatWord (some s.ru.format), formatWord s.ru.pendingFormat] ++ twoWords s.ru.frameCount

/-- SET REFERENCE (R19). -/
def actSetReference (args : List Word) (s : State) : Act :=
  match args with
  | [a] =>
    match a.index? 11 with
    | some f =>
      let s1 := s.setRu { s.ru with pendingFormat := pendingAfter s.ru f }
      .answered .done (referenceWords s1) s1
    | none => refusedArgument s
  | _ => refusedArgument s

end Sys2Proof.Machine
end

