-- ==== Sys2Proof/Machine/ControlCommands.lean ====
section
/-! DEFINITION. The control commands and STORE FAILSAFE (R170 to R172, R174). -/

namespace Sys2Proof.Machine

/-- The code of a silence time (R170). -/
def silenceTimeCode (t : SilenceTime) : Word :=
  match t with
  | .off => 0
  | .s2 => 1
  | .s10 => 2
  | .s60 => 3

/-- The code of a silence action (R170). -/
def silenceActionCode (a : SilenceAction) : Word :=
  match a with
  | .hold => 0
  | .failsafe => 1

/-- The four control settings as result words (R170, R171). -/
def controlWords (m : Management) : List Word :=
  [numWord m.controlFeed.val, numWord m.answerFeed.val, silenceTimeCode m.silenceTime, silenceActionCode m.silenceAction]

/-- SET CONTROL (R170). An expiry that is due is taken first, with the settings as they stood; that is the model's choice (DESIGN CHOICE, log entry 39). -/
def actSetControl (args : List Word) (s : State) : Act :=
  match args with
  | [a, b, c, d] =>
    match a.index? 8, b.index? 8, silenceTimeArg? c, silenceActionArg? d with
    | some control, some answer, some time, some action =>
      if (s.fr.get control).state = .off then refusedArgument s
      else
        let s0 := takeExpiry s
        let s1 := restartTimer (s0.setMgmt { s0.mgmt with
          controlFeed := control, answerFeed := answer, silenceTime := time, silenceAction := action })
        .answered .done (controlWords s1.mgmt) s1
    | _, _, _, _ => refusedArgument s
  | _ => refusedArgument s

/-- A start cause's code (R171). -/
def causeCode (c : StartCause) : Word :=
  match c with
  | .power => 0
  | .pin => 1
  | .command => 2

/-- The domains switched as a word: bit d for domain d (R171). -/
def switchedWord (e : Engine) : Word :=
  match e.inFlight with
  | none => 0
  | some c => BitVec.ofNat 16 (c.switched.cells.foldr (fun b acc => b.toNat + 2 * acc) 0)

/-- The code of the source of the last result (R171). -/
def requesterCode (r : Option Requester) : Word :=
  match r with
  | none => 0
  | some (.command _) => 1
  | some (.cue c) => if c = 0 then 2 else 3
  | some .failsafe => 4

/-- The code of the last result (R171). -/
def resultCode (r : CommitResult) : Word :=
  match r with
  | .none => 0
  | .done => 1
  | .refusedGuarded => 2
  | .refusedTableFull => 3

/-- The store state's code (R173). -/
def storeCode (t : StoreState) : Word :=
  match t with
  | .invalid => 0
  | .writing => 1
  | .valid => 2

/-- The 22 result words of READ DEVICE (R171). -/
def deviceWords (s : State) : List Word :=
  [numWord s.mgmt.address, causeCode s.pins.cause] ++ controlWords s.mgmt ++
    [if s.mgmt.timerRunning then numWord s.mgmt.remaining else 0,
      numWord s.mgmt.queue.length, numWord s.mgmt.answers.length, flagWord s.mgmt.notice.isSome,
      flagWord s.ce.inFlight.isSome, switchedWord s.ce, numWord s.ce.waiting.length, s.ce.commitCount,
      requesterCode s.ce.lastSource, resultCode s.ce.lastResult] ++ referenceWords s ++ [storeCode s.store.state]

/-- READ DEVICE (R171). -/
def actReadDevice (args : List Word) (s : State) : Act :=
  match args with
  | [] => .answered .done (deviceWords s) s
  | _ => refusedArgument s

/-- RESET DEVICE (R172): the CX takes no further command and produces no answer, and a start-up is due. -/
def actResetDevice (args : List Word) (s : State) : Act :=
  match args with
  | [] => .inFlight ((s.setMgmt { s.mgmt with cx := .stopped }).setPins { s.pins with startUpDue := true })
  | _ => refusedArgument s

/-- The contents that a store of a bank writes, with the guard ranges as they stand (R173, R174). -/
def imageOf (b : Bank) (g : Table 4 Guard) : ImageContents := ⟨b, g.map fun r => ⟨r.enabled, r.low, r.high⟩⟩

/-- STORE FAILSAFE (R174): while the write runs the image is not good (R175). -/
def actStoreFailsafe (args : List Word) (s : State) : Act :=
  match args with
  | [a] =>
    match bankArg? a with
    | some b =>
      let k := bankOf s b
      if Config.takePoints < pairNeed k then .answered .refusedTableFull [a, numWord (pairNeed k)] s
      else if s.store.state = .writing then .answered .refusedBusy [] s
      else
        .answered .started [a, numWord (pairNeed k), 1]
          { s with failsafe := k, store := ⟨.writing, none, some (imageOf k s.guards)⟩ }
    | none => refusedArgument s
  | _ => refusedArgument s

end Sys2Proof.Machine
end

