-- ==== Sys2Proof/Machine/LogCommands.lean ====
section
/-! DEFINITION. The commands for the log: READ FAULTS, CLEAR FAULTS, SET NOTICES (R159 to R161). -/

namespace Sys2Proof.Machine

/-- The five result words of a fault record (R159). -/
def faultWords (r : FaultRecord) : List Word :=
  (BitVec.ofNat 8 (reasonCode r.reason) ++ BitVec.ofNat 8 (sourceKind r.source)) ::
    numWord (sourceIndex r.source) :: numWord r.repeats :: twoWords r.firstStamp

/-- READ FAULTS (R159): the values are taken, then pending is cleared. -/
def actReadFaults (args : List Word) (s : State) : Act :=
  match args with
  | [a, b] =>
    if 1 ≤ a.toNat ∧ a.toNat ≤ 8 ∧ 1 ≤ b.toNat ∧ b.toNat ≤ 4 then
      let found := (s.log.records.drop (a.toNat - 1)).take b.toNat
      .answered .done
        ([numWord s.log.records.length, flagWord s.log.overflow, flagWord s.log.masked, flagWord s.log.pending, a,
          numWord found.length] ++ found.flatMap faultWords)
        (s.setLog { s.log with pending := false })
    else refusedArgument s
  | _ => refusedArgument s

/-- The records that CLEAR FAULTS of a position leaves (R160). -/
def keptRecords (position : Nat) (l : List FaultRecord) : List FaultRecord :=
  if position = 0 then [] else l.eraseIdx (position - 1)

/-- The log after CLEAR FAULTS: overflow and pending are cleared when it is empty (R160). -/
def clearedLog (position : Nat) (l : FaultLog) : FaultLog :=
  let kept := keptRecords position l.records
  { l with records := kept, overflow := l.overflow && !kept.isEmpty, pending := l.pending && !kept.isEmpty }

/-- CLEAR FAULTS (R160). -/
def actClearFaults (args : List Word) (s : State) : Act :=
  match args with
  | [a] =>
    if a.toNat ≤ 8 then
      let l := clearedLog a.toNat s.log
      .answered .done [numWord (s.log.records.length - l.records.length), numWord l.records.length] (s.setLog l)
    else refusedArgument s
  | _ => refusedArgument s

/-- The three result words of SET NOTICES (R161). -/
def noticeWords (l : FaultLog) : List Word := [flagWord l.masked, flagWord l.pending, numWord l.records.length]

/-- SET NOTICES (R161): 0 is UNMASKED and 1 is MASKED. -/
def actSetNotices (args : List Word) (s : State) : Act :=
  match args with
  | [] =>
    let s1 := noticeForNewest s
    .answered .done (noticeWords s1.log) s1
  | [a] =>
    match a.flag? with
    | some m =>
      let s1 := noticeForNewest (s.setLog { s.log with masked := m })
      .answered .done (noticeWords s1.log) s1
    | none => refusedArgument s
  | _ => refusedArgument s

end Sys2Proof.Machine
end

