-- ==== Sys2Proof/Machine/PatchCommands.lean ====
section
/-! DEFINITION. The commands of the patch map: WRITE ENTRY, WRITE QUAD MODE, COPY BANK, READ ENTRY, READ QUAD MODES, SET GUARD, READ GUARDS (R83 to R94). -/

namespace Sys2Proof.Machine

/-! ## Editing -/

/-- The entry that words 3 to 11 of WRITE ENTRY describe; none when a word is out of range, or a partner stands without a source (R84). The delay is held at 6000 (R85). -/
def entryArgs? (src gain inv psrc pgain pinv delay ramp mute : Word) : Option Entry :=
  match sourceArg? src, inv.flag?, sourceArg? psrc, pinv.flag?, rampArg? ramp, mute.flag? with
  | some source, some invert, some partner, some pinvert, some rc, some m =>
    if source = none ∧ partner ≠ none then none
    else some ⟨source, gain, invert, partner.map fun p => ⟨p, pgain, pinvert⟩, min Config.maxDelay delay.toNat, rc, m⟩
  | _, _, _, _, _, _ => none

/-- The thirteen result words of READ ENTRY (R89). -/
def entryWords (s : State) (b : BankCode) (x : Dest) : List Word :=
  let k := bankOf s b
  let e := k.entries.get x
  [bankCode b, numWord x.val, sourceWord e.source, e.gain, flagWord e.invert, sourceWord (e.partner.map Partner.source),
    (match e.partner with
      | none => 0
      | some p => p.gain),
    (match e.partner with
      | none => 0
      | some p => flagWord p.invert),
    numWord e.delay, rampWord e.ramp, flagWord e.mute, flagWord (inUseIn k x), numWord (pairNeed k)]

/-- A staging bank with one entry replaced (R84). -/
def writeEntryIn (b : Staging) (x : Dest) (e : Entry) (s : State) : State :=
  let k := stagingOf s b
  setStaging b { k with entries := k.entries.set x e } s

/-- WRITE ENTRY (R84, R85). -/
def actWriteEntry (args : List Word) (s : State) : Act :=
  match args with
  | [a, b, src, gain, inv, psrc, pgain, pinv, delay, ramp, mute] =>
    match stagingArg? a, b.index? 144, entryArgs? src gain inv psrc pgain pinv delay ramp mute with
    | some bank, some x, some e =>
      let s1 := writeEntryIn bank x e s
      .answered (if Config.maxDelay < delay.toNat then .clamped else .done) (entryWords s1 (stagingBank bank) x) s1
    | _, _, _ => refusedArgument s
  | _ => refusedArgument s

/-- WRITE QUAD MODE (R86). -/
def actWriteQuadMode (args : List Word) (s : State) : Act :=
  match args with
  | [a, b, c] =>
    match stagingArg? a, b.index? 32, modeArg? c with
    | some bank, some q, some m =>
      let k := stagingOf s bank
      let k1 := { k with modes := k.modes.set q m }
      .answered .done [a, b, c, numWord (pairNeed k1)] (setStaging bank k1 s)
    | _, _, _ => refusedArgument s
  | _ => refusedArgument s

/-- COPY BANK (R87). -/
def actCopyBank (args : List Word) (s : State) : Act :=
  match args with
  | [a, b] =>
    match bankArg? a, stagingArg? b with
    | some src, some dst => .answered .done [a, b, numWord (pairNeed (bankOf s src))] (setStaging dst (bankOf s src) s)
    | _, _ => refusedArgument s
  | _ => refusedArgument s

/-! ## Reading -/

/-- READ ENTRY (R89). -/
def actReadEntry (args : List Word) (s : State) : Act :=
  match args with
  | [a, b] =>
    match bankArg? a, b.index? 144 with
    | some bank, some x => .answered .done (entryWords s bank x) s
    | _, _ => refusedArgument s
  | _ => refusedArgument s

/-- READ QUAD MODES (R90). -/
def actReadQuadModes (args : List Word) (s : State) : Act :=
  match args with
  | [a, b, c] =>
    match bankArg? a, b.index? 32 with
    | some bank, some first =>
      if 1 ≤ c.toNat ∧ c.toNat ≤ 24 ∧ first.val + c.toNat ≤ 32 then
        let k := bankOf s bank
        .answered .done
          ([a, b, c, numWord (pairNeed k)] ++ (((k.modes.cells.drop first.val).take c.toNat).map modeCode)) s
      else refusedArgument s
    | _, _ => refusedArgument s
  | _ => refusedArgument s

/-! ## Guard ranges -/

/-- A guard range as SET GUARD and READ GUARDS report it (R92, R94). -/
def guardWords (g : Guard) : List Word := [flagWord g.enabled, numWord g.low.val, numWord g.high.val, flagWord g.fixed]

/-- Ranges `new` guard some destination that ranges `old` do not (R92). -/
def guardsNew (old new : Table 4 Guard) : Bool := (List.finRange 144).any fun x => destGuarded new x && !destGuarded old x

/-- The range that words 2 to 5 of SET GUARD describe (R92). -/
def guardArgs? (enabled low high fixed : Word) : Option Guard :=
  match enabled.flag?, low.index? 144, high.index? 144, fixed.flag? with
  | some e, some l, some h, some x => if l ≤ h then some ⟨e, l, h, x⟩ else none
  | _, _, _, _ => none

/-- SET GUARD (R92). -/
def actSetGuard (args : List Word) (s : State) : Act :=
  match args with
  | [a, b, c, d, e] =>
    match a.index? 4, guardArgs? b c d e with
    | some i, some g =>
      if (s.guards.get i).fixed then .answered .refusedFixed [] s
      else if s.ce.inFlight.isSome && guardsNew s.guards (s.guards.set i g) then .answered .refusedBusy [] s
      else .answered .done (a :: guardWords g) { s with guards := s.guards.set i g }
    | _, _ => refusedArgument s
  | _ => refusedArgument s

/-- The number of guarded destinations (R94). -/
def guardedCount (g : Table 4 Guard) : Nat := ((List.finRange 144).filter fun x => destGuarded g x).length

/-- READ GUARDS (R94). -/
def actReadGuards (args : List Word) (s : State) : Act :=
  match args with
  | [] => .answered .done (s.guards.cells.flatMap guardWords ++ [numWord (guardedCount s.guards)]) s
  | _ => refusedArgument s

end Sys2Proof.Machine
end

