-- ==== Sys2Proof/Machine/RingCommands.lean ====
section
/-! DEFINITION. The commands for rings and take points: FLUSH and READ TAKE POINTS (R70 to R73). -/

namespace Sys2Proof.Machine

/-- The rings a FLUSH names, with the granularity applied, 0 ALL, 1 FEED or 2 QUAD; none for a refused form (R70). -/
def flushTarget? (args : List Word) : Option (Nat × List RingNo) :=
  match args with
  | [g] => if g = 0 then some (0, List.finRange 36) else none
  | [g, a] =>
    if g = 1 then (a.index? 8).map fun f => (1, (List.finRange 4).map (feedRing f))
    else if g = 2 then (a.index? 36).map fun r => (2, [r])
    else if g = 4 then (a.index? 4).map fun n => (2, [lineRing n])
    else none
  | [g, a, b] =>
    if g = 3 then
      match a.index? 8, b.index? 16 with
      | some f, some t => some (2, [feedRing f ⟨t.val / 4, by omega⟩])
      | _, _ => none
    else none
  | _ => none

/-- FLUSH (R71). -/
def actFlush (args : List Word) (s : State) : Act :=
  match flushTarget? args with
  | some (g, rings) =>
    .answered .done [numWord g, firstOr255 rings, numWord rings.length] (walk rings resetRing s)
  | none => refusedArgument s

/-- The level of a record: its occupancy in RUNNING, its ring's written count in FILLING, at most 65535, and 0 otherwise (R72). -/
def recordLevel (s : State) (tp : TakePoint) : Nat :=
  match tp.state with
  | .running => occupancy s tp
  | .filling => min Config.countMax (s.rings.get tp.ring).written
  | .starved | .free => 0

/-- The three result words of a record in a view (R72). -/
def recordWords (s : State) (view : Fin 3) (tp : TakePoint) : List Word :=
  match view with
  | 0 => [tpStateCode tp.state, numWord tp.ring.val, numWord tp.domain.val]
  | 1 => [numWord tp.references, flagWord tp.reserved, numWord (recordLevel s tp)]
  | 2 => [tp.slipsAhead, tp.slipsBack, tp.recentres]

/-- READ TAKE POINTS (R72, R73). -/
def actReadTakePoints (args : List Word) (s : State) : Act :=
  match args with
  | [a, b, c] =>
    match a.index? 64, c.index? 3 with
    | some first, some view =>
      if 1 ≤ b.toNat ∧ b.toNat ≤ 8 ∧ first.val + b.toNat ≤ 64 then
        .answered .done
          ([a, b, c] ++ ((s.tpt.cells.drop first.val).take b.toNat).flatMap (recordWords s view)) s
      else refusedArgument s
    | _, _ => refusedArgument s
  | _ => refusedArgument s

end Sys2Proof.Machine
end

