-- ==== Sys2Proof/Machine/StartUp.lean ====
section
/-! DEFINITION. Start-up (chapter 12.3), and the due work that an event takes first (log entry 6). -/

namespace Sys2Proof.Machine

/-- The device address that address pins give: 15 is taken as 14 (R162). -/
def sampledAddress (pins : BitVec 4) : Nat := min 14 pins.toNat

/-- An image is good when its check word agrees with its contents (R173). -/
def Image.good (m : Image) : Bool := m.check == Config.checkWord m.toImageContents

/-- The good image of a store, if it holds one (R173). -/
def Store.goodImage (t : Store) : Option Image := t.image.filter Image.good

/-- The store after start-up has examined its image: VALID with a good image, else INVALID; a write in progress is interrupted (R173, R175). -/
def Store.examined (t : Store) : Store :=
  match t.goodImage with
  | some im => ⟨.valid, some im, none⟩
  | none => ⟨.invalid, t.image, none⟩

/-- Bank F after start-up: the good image's bank, or the hardware default bank (R177). -/
def Store.bank (t : Store) : Bank :=
  match t.goodImage with
  | some im => im.bank
  | none => Bank.default

/-- A guard range as start-up loads it from the image, its fixed flag off (R177). -/
def GuardImage.load (g : GuardImage) : Guard := ⟨g.enabled, g.low, g.high, false⟩

/-- The guard ranges after start-up: the good image's, or all disabled (R91, R177). -/
def Store.guards (t : Store) : Table 4 Guard :=
  match t.goodImage with
  | some im => im.guards.map GuardImage.load
  | none => Table.fill 4 Guard.start

/-- One source of the start-up walk: a pair not yet allocated takes the lowest-index FREE record, and the source adds one reference (R178). -/
def loadPair (t : Table 64 TakePoint) (p : RingNo × Domain) : Table 64 TakePoint :=
  if t.cells.any fun tp => tp.holds p then addReference p t else allocate p false 1 t

/-- The Take Point Table that start-up allocates for the patch it puts in force (R177, R178). -/
def loadedTable (b : Bank) : Table 64 TakePoint := (bankPairs b).foldl loadPair (Table.fill 64 TakePoint.start)

/-- Start-up: one event, with the same effect for every cause but for the cause it keeps (R176 to R178). The outside's levels and the model's queue stand as they are. -/
def startUp (cause : StartCause) (s : State) : State :=
  { State.reset with
    pins := { s.pins with cause := cause, startUpDue := false }
    lineIn := s.lineIn
    store := s.store.examined
    failsafe := s.store.bank
    active := s.store.bank
    guards := s.store.guards
    tpt := loadedTable s.store.bank
    mgmt := Management.start (sampledAddress s.pins.address)
    pending := s.pending }

/-- The due work, taken before anything else of an event: the start-up that an accepted RESET DEVICE arranged, or the expiry of the silence timer (R169, R172; log entry 6). -/
def settle (s : State) : State := if s.pins.startUpDue then startUp .command s else takeExpiry s

end Sys2Proof.Machine
end

