-- ==== Sys2Proof/Machine/Executor.lean ====
section
/-! DEFINITION. The Command Executor: the code table, taking commands, offering them to the queue, and the CLEAR packet (chapters 11.2 to 11.5). -/

namespace Sys2Proof.Machine

/-- The rows of the command code table (R166). -/
inductive CommandRow where
  | setFeed | readFeed | setReference | flush | readTakePoints | writeEntry | writeQuadMode | copyBank | readEntry
  | readQuadModes | setGuard | readGuards | commit | armCue | disarmCue | readCues | setPresence | startPathCheck
  | setMixerCheck | readFaults | clearFaults | setNotices | setControl | readDevice | resetDevice | storeFailsafe
  deriving DecidableEq, Repr

/-- The code of a row (R166). -/
def rowCode (r : CommandRow) : Byte :=
  match r with
  | .setFeed => 1
  | .readFeed => 2
  | .setReference => 3
  | .flush => 8
  | .readTakePoints => 9
  | .writeEntry => 16
  | .writeQuadMode => 17
  | .copyBank => 18
  | .readEntry => 19
  | .readQuadModes => 20
  | .setGuard => 21
  | .readGuards => 22
  | .commit => 24
  | .armCue => 25
  | .disarmCue => 26
  | .readCues => 27
  | .setPresence => 32
  | .startPathCheck => 40
  | .setMixerCheck => 41
  | .readFaults => 48
  | .clearFaults => 49
  | .setNotices => 50
  | .setControl => 56
  | .readDevice => 57
  | .resetDevice => 58
  | .storeFailsafe => 64

/-- The row a code stands in; none for every other code (R164, R166). -/
def codeRow? (c : Byte) : Option CommandRow :=
  match c.toNat with
  | 1 => some .setFeed
  | 2 => some .readFeed
  | 3 => some .setReference
  | 8 => some .flush
  | 9 => some .readTakePoints
  | 16 => some .writeEntry
  | 17 => some .writeQuadMode
  | 18 => some .copyBank
  | 19 => some .readEntry
  | 20 => some .readQuadModes
  | 21 => some .setGuard
  | 22 => some .readGuards
  | 24 => some .commit
  | 25 => some .armCue
  | 26 => some .disarmCue
  | 27 => some .readCues
  | 32 => some .setPresence
  | 40 => some .startPathCheck
  | 41 => some .setMixerCheck
  | 48 => some .readFaults
  | 49 => some .clearFaults
  | 50 => some .setNotices
  | 56 => some .setControl
  | 57 => some .readDevice
  | 58 => some .resetDevice
  | 64 => some .storeFailsafe
  | _ => none

/-- A command of a row is acted on by the rule the table names (R164, R166). -/
def act (r : CommandRow) (args : List Word) (s : State) : Act :=
  match r with
  | .setFeed => actSetFeed args s
  | .readFeed => actReadFeed args s
  | .setReference => actSetReference args s
  | .flush => actFlush args s
  | .readTakePoints => actReadTakePoints args s
  | .writeEntry => actWriteEntry args s
  | .writeQuadMode => actWriteQuadMode args s
  | .copyBank => actCopyBank args s
  | .readEntry => actReadEntry args s
  | .readQuadModes => actReadQuadModes args s
  | .setGuard => actSetGuard args s
  | .readGuards => actReadGuards args s
  | .commit => actCommit args s
  | .armCue => actArmCue args s
  | .disarmCue => actDisarmCue args s
  | .readCues => actReadCues args s
  | .setPresence => actSetPresence args s
  | .startPathCheck => actStartPathCheck args s
  | .setMixerCheck => actSetMixerCheck args s
  | .readFaults => actReadFaults args s
  | .clearFaults => actClearFaults args s
  | .setNotices => actSetNotices args s
  | .setControl => actSetControl args s
  | .readDevice => actReadDevice args s
  | .resetDevice => actResetDevice args s
  | .storeFailsafe => actStoreFailsafe args s

/-- What an act comes to: an answer now, or a command that stays in flight (R164). -/
def Act.run (a : Act) : State :=
  match a with
  | .answered v words s => answerCommand v words s
  | .inFlight s => s

/-- The CX becomes EXECUTING (R164). -/
def execute (s : State) : State := s.setMgmt { s.mgmt with cx := .executing }

/-- The CX takes the command at the head of the queue (R164). -/
def takeCommand (c : Command) (s : State) : State :=
  match codeRow? c.code with
  | none => answerCommand .unknownCommand [] (execute s)
  | some r => (act r c.args (execute s)).run

/-- While the CX is IDLE and the queue holds a command, the CX takes it, at most `fuel` commands (R164). -/
def cxRun (fuel : Nat) (s : State) : State :=
  match fuel with
  | 0 => s
  | n + 1 =>
    if s.mgmt.cx = .idle then
      match s.mgmt.queue with
      | [] => s
      | c :: _ => cxRun n (takeCommand c s)
    else s

/-- The CX takes the commands that wait, as far as it comes at this event: each one taken leaves the queue or stays in flight, so the queue's length bounds them (R164). -/
def finish (s : State) : State := cxRun s.mgmt.queue.length s

/-- A MANAGE packet's command is offered to the queue: it joins the end, or is dropped with QUEUE OVERRUN when 32 are held (R163). -/
def offerCommand (c : Command) (s : State) : State :=
  if heldCount s.mgmt < Config.heldLimit then s.setMgmt { s.mgmt with queue := s.mgmt.queue ++ [c] }
  else report .queueOverrun (managementSource s) s

/-- A valid MANAGE packet for this part: the silence timer restarts, the command is offered, and the CX takes what it can (R163, R164, R168). -/
def acceptCommand (c : Command) (s : State) : State := finish (offerCommand c (restartTimer s))

/-- What a CLEAR packet leaves of the queue, the AQ and the discard flag (R167). -/
def Management.cleared (m : Management) : Management :=
  match m.cx with
  | .idle => { m with queue := [], notice := none, answers := [] }
  | .executing | .stopped => { m with queue := m.queue.take 1, discard := true, notice := none, answers := [] }

/-- A CLEAR packet that the MP acts on (R167). -/
def clearPacket (s : State) : State :=
  let s1 := restartTimer s
  s1.setMgmt s1.mgmt.cleared

end Sys2Proof.Machine
end

