-- ==== Sys2Proof/Machine/Receiving.lean ====
section
/-! DEFINITION. What an FR does with the packets of a line (chapters 2.3 to 2.6 and 3.4). -/

namespace Sys2Proof.Machine

/-! ## SOUND packets in LOCKED -/

/-- The quad of an FR changed by g. -/
def changeQuad (f : Feed) (q : Quad) (g : QuadTrack → QuadTrack) (s : State) : State :=
  s.setFr f { s.fr.get f with quads := (s.fr.get f).quads.modify q g }

/-- Quad q claims the line (R23, R25). -/
def claim (f : Feed) (q : Quad) (s : State) : State :=
  s.setFr f { s.fr.get f with claimed := (s.fr.get f).claimed.set q true }

/-- A cadence tracker is handed an accepted packet (R46). DESIGN CHOICE (log entry 31): R45 gives the frame total as 0 to 4094 and no rule says what a frame of more than 2047 two-set packets comes to; the total goes on rising. -/
def Tracker.tallied (t : Tracker) (h : SoundHead) : Tracker :=
  if t.tracking then
    { t with
      total := t.total + h.setCount.toNat
      framePhase := some (t.framePhase.getD h.phase.toNat)
      conflict := t.conflict || t.framePhase.any fun k => k != h.phase.toNat }
  else if h.first then ⟨true, none, some h.phase.toNat, h.setCount.toNat, false⟩
  else t

/-- A quad that an accepted packet finds UNKNOWN or ABSENT becomes PRESENT, and its ring is reset first (R10, R27). -/
def makePresent (f : Feed) (q : Quad) (s : State) : State :=
  if ((s.fr.get f).quads.get q).state = .present then s
  else resetRing (feedRing f q) (changeQuad f q (fun k => { k with state := .present }) s)

/-- The sequence check: SEQUENCE GAP when base is not pending and the count is not the last plus 1 (R26). -/
def checkSequence (f : Feed) (q : Quad) (count : BitVec 4) (s : State) : State :=
  let k := (s.fr.get f).quads.get q
  let s1 := if k.basePending = false ∧ count ≠ k.lastCount + 1 then report .sequenceGap (.inputQuad f q) s else s
  changeQuad f q (fun k => { k with basePending := false, lastCount := count }) s1

/-- An accepted packet: its sets are written and offered, and the cadence tracker tallies it (R10, R27, R46, R135). -/
def acceptSound (f : Feed) (q : Quad) (p : Packet) (s : State) : State :=
  let s1 := makePresent f q s
  let s2 := offerSets (feedRing f q) p.soundSets (writeEvent (feedRing f q) p.soundSets s1)
  changeQuad f q (fun k => { k with empty := 0, carried := true, tracker := k.tracker.tallied p.soundHead }) s2

/-- A SOUND packet whose checksum is bad: SOUND CHECKSUM, and the quad's tracking begins afresh (R24, R45). -/
def discardSound (f : Feed) (q : Quad) (s : State) : State :=
  report .soundChecksum (.inputQuad f q)
    (changeQuad f q (fun k => { k with basePending := true, tracker := Tracker.rebase }) s)

/-- A SOUND packet with a good checksum is misplaced on this line (R25). -/
def misplaced (r : Receiver) (line : Nat) (q : Quad) (p : Packet) : Bool :=
  r.claimed.get q || !p.soundLengthAgrees || decide (line ≤ 2)

/-- A SOUND packet of quad q in LOCKED (R24 to R27). -/
def lockedSound (f : Feed) (line : Nat) (q : Quad) (p : Packet) (s : State) : State :=
  if p.good then
    if misplaced (s.fr.get f) line q p then report .packetMisplaced (.inputQuad f q) (claim f q s)
    else acceptSound f q p (checkSequence f q p.soundHead.count (claim f q s))
  else discardSound f q s

/-- The first SOUND packet of quad q in the line is remembered as it arrived, in a running state (R28). -/
def remember (f : Feed) (q : Quad) (p : Packet) (s : State) : State :=
  let r := s.fr.get f
  if runningState r.state && (r.remembered.get q).isNone then
    s.setFr f { r with remembered := r.remembered.set q (some p) }
  else s

/-- A SOUND packet in a line: one that names no quad is dropped (R28). -/
def soundPacket (f : Feed) (line : Nat) (p : Packet) (s : State) : State :=
  match p.quad? with
  | none => s
  | some q =>
    let s1 := remember f q p s
    if (s1.fr.get f).state = .locked then lockedSound f line q p s1 else s1

/-! ## Extra-class packets -/

/-- A packet to be passed through takes the line's pass-through place when it is empty, in a running state (R32). -/
def passThrough (f : Feed) (p : Packet) (s : State) : State :=
  let r := s.fr.get f
  if runningState r.state && r.place.isNone then s.setFr f { r with place := some p } else s

/-- A MANAGE or CLEAR packet is acted on (R29, R163, R167). -/
def actOnManagement (p : Packet) (s : State) : State :=
  if classOf p.header = .clear then clearPacket s else acceptCommand p.command s

/-- A management packet of this part's address or of broadcast: acted on when its checksum is good and its length allowed, else MANAGEMENT CHECKSUM (R29). -/
def judgeManagement (p : Packet) (s : State) : State :=
  if p.good && p.managementLengthAllowed then actOnManagement p s
  else report .managementChecksum (managementSource s) s

/-- A MANAGE or CLEAR packet on the control feed (R29). -/
def managementPacket (f : Feed) (p : Packet) (s : State) : State :=
  if headerField p.header = s.mgmt.address then judgeManagement p s
  else if headerField p.header = 15 then judgeManagement p (passThrough f p s)
  else passThrough f p s

/-- A STAMP packet: handed to the CU in LOCKED when it is valid, and passed through (R31, R32). -/
def stampPacket (f : Feed) (p : Packet) (s : State) : State :=
  let r := s.fr.get f
  let s1 :=
    match r.state, r.detected with
    | .locked, some fm =>
      if p.good && headerLength p.header == 2 && p.stamp.inRange (rateOf fm) then takeStamp f (rateOf fm) p.stamp s
      else s
    | _, _ => s
  passThrough f p s1

/-- One packet of a line of feed f; `control` says that the line is one of the control feed (R9, R21, R170). -/
def takePacket (f : Feed) (line : Nat) (control : Bool) (p : Packet) (s : State) : State :=
  match classOf p.header with
  | .sound => soundPacket f line p s
  | .manage | .clear => if control then managementPacket f p s else passThrough f p s
  | .stamp => stampPacket f p s
  | .answer | .other => passThrough f p s

/-- The quad 0 to 3 that the header of a truncated SOUND packet names (R20). -/
def truncatedQuad? (h : Word) : Option Quad :=
  if classOf h = .sound then (if lt : headerField h < 4 then some ⟨headerField h, lt⟩ else none) else none

/-- A truncated packet: PACKET MISPLACED when it is a SOUND packet of quad 0 to 3 in LOCKED, and nothing else (R20). -/
def truncatedPacket (f : Feed) (header : Option Word) (s : State) : State :=
  match header.bind truncatedQuad? with
  | none => s
  | some q => if (s.fr.get f).state = .locked then report .packetMisplaced (.inputQuad f q) s else s

/-- What the scan found, taken in turn; an FR that has gone OFF within the line disregards the rest of it (R9, R20). DESIGN CHOICE (log entry 34): so does the old control feed that a SET FEED of the same line, after a SET CONTROL of it, sends to OFF, though R170 reads that line to its end as the control feed. -/
def takeScanned (f : Feed) (line : Nat) (control : Bool) (x : Scanned) (s : State) : State :=
  if (s.fr.get f).state = .off then s
  else
    match x with
    | .packet p => takePacket f line control p s
    | .truncated h => truncatedPacket f h s

end Sys2Proof.Machine
end

