-- ==== Sys2Proof/Machine/Sending.lean ====
section
/-! DEFINITION. The output line (chapters 2.7 and 2.8), and a line record from its arrival to the line sent. -/

namespace Sys2Proof.Machine

/-! ## Slots -/

/-- The built packet of an output quad for the line being built (R35). -/
def builtPacket (f : Feed) (q : Quad) (s : State) : Packet :=
  let o := s.fmt.get f
  makeSound q
    { count := o.built.get q
      phase := BitVec.ofNat 3 o.phase
      first := !o.firstSent.get q
      setCount := BitVec.ofNat 2 o.sets.length
      wide := s.active.modes.get (outQuad f q) == .embed24
      active := activeFlags s.active (outQuad f q) }
    (o.sets.map fun v => Table.tab 4 fun p => v.get (quadTrack q p))

/-- A slot of this mode carries a built packet on this line (R34). -/
def buildsOn (f : Feed) (q : Quad) (line : Nat) (s : State) : Bool :=
  embeds (s.active.modes.get (outQuad f q)) && decide (2 < line) && !(s.fmt.get f).sets.isEmpty

/-- The packet of sound slot q of an output line (R34). -/
def soundSlot (f : Feed) (line : Nat) (s : State) (q : Quad) : Option Packet :=
  match s.active.modes.get (outQuad f q) with
  | .pass => if 2 < line then (s.fr.get f).remembered.get q else none
  | .remove => none
  | .embed24 | .embed20 => if buildsOn f q line s then some (builtPacket f q s) else none

/-- The four sound slots (R33). -/
def soundSlots (f : Feed) (line : Nat) (s : State) : Table 4 (Option Packet) := Table.tab 4 (soundSlot f line s)

/-- The built counts and the frame-first marks after the line's built packets (R35). -/
def countBuilt (f : Feed) (line : Nat) (s : State) : State :=
  let o := s.fmt.get f
  s.setFmt f { o with
    built := Table.tab 4 fun q => if buildsOn f q line s then o.built.get q + 1 else o.built.get q
    firstSent := Table.tab 4 fun q => buildsOn f q line s || o.firstSent.get q }

/-- What the extra slot of feed f carries (R37, R38). -/
def extraSlot (f : Feed) (s : State) : Option Packet :=
  match (s.fr.get f).place with
  | some p => some p
  | none =>
    if s.mgmt.answerFeed = f then
      match s.mgmt.notice with
      | some n => some (packetOfNotice s n)
      | none => s.mgmt.answers.head?.map (packetOfAnswer s)
    else none

/-- The AQ after the extra slot has been filled: the head that it carries leaves, and a notice that leaves may bring the next (R37, R158). -/
def drainQueue (f : Feed) (s : State) : State :=
  if (s.fr.get f).place.isNone ∧ s.mgmt.answerFeed = f then
    if s.mgmt.notice.isSome then noticeForNewest (s.setMgmt { s.mgmt with notice := none })
    else s.setMgmt { s.mgmt with answers := s.mgmt.answers.tail }
  else s

/-- The words of the packets in the slots, in order (R33). -/
def slotWords (slots : Table 4 (Option Packet)) (extra : Option Packet) : List Word :=
  (slots.cells ++ [extra]).flatMap fun p => p.elim [] Packet.words

/-- Words of packets as the blanking of a line of n words: what is left is 0x0000 (R33; the length of a line's blanking, log entry 13). -/
def padded (n : Nat) (ws : List Word) : List Word := ws ++ List.replicate (n - ws.length) 0

/-! ## Lines -/

/-- Output line of feed f sent (R33). -/
def sendLine (f : Feed) (picture blanking : List Word) (s : State) : State :=
  s.setFmt f { s.fmt.get f with line := some ⟨picture, blanking⟩ }

/-- An output line whose blanking is 0x0000 (R33). -/
def sendEmpty (f : Feed) (r : LineRecord) (s : State) : State :=
  sendLine f r.picture (List.replicate r.blanking.length 0) s

/-- An output line of a running domain: its slots are filled, it is sent, and the PC reads it (R33 to R38, R149). DESIGN CHOICE (log entry 35): the extra slot is filled before the PC reads the line, so the answer of a check aborted at this line is not yet in the AQ then. -/
def sendBuilt (f : Feed) (line : Nat) (r : LineRecord) (s : State) : State :=
  let slots := soundSlots f line s
  let extra := extraSlot f s
  let s1 := drainQueue f (countBuilt f line s)
  pathCheckLine f line slots (sendLine f r.picture (padded r.blanking.length (slotWords slots extra)) s1)

/-- The output line that corresponds to an input line that has been read (R33). -/
def sendOutput (f : Feed) (line : Nat) (r : LineRecord) (s : State) : State :=
  if domainRunning s (feedDomain f) then sendBuilt f line r s else sendEmpty f r s

/-- The frame line of a record: 1 with a frame mark, else one more than the last (R3). -/
def frameLine (r : Receiver) (mark : Bool) : Nat := if mark then 1 else r.lineCount + 1

/-- The start of a line record: its number is counted, and the claims, the place and what the last line left are cleared (R3, R23). A record with a frame mark has been counted by the frame boundary it brings. -/
def openLine (f : Feed) (mark : Bool) (s : State) : State :=
  let r := s.fr.get f
  let s1 := s.setFr f { r with
    lineCount := if mark then r.lineCount else r.lineCount + 1
    claimed := Table.fill 4 false
    place := none
    remembered := Table.fill 4 none }
  s1.setFmt f { s1.fmt.get f with sets := [] }

/-- The emissions of a frame line of feed f, each by the number of scanned packets after which it is taken (R43, R63; log entry 3). -/
def lineEmissions (f : Feed) (line : Nat) (emitAfter : List Nat) (s : State) : List Nat :=
  match (s.fr.get f).detected with
  | none => []
  | some fm => (List.range (setsOnFrameLine fm (s.fmt.get f).phase line)).map fun i => emitAfter.getD i 0

/-- One emission of domain f, if the domain still runs (R43). -/
def emitOnce (f : Feed) (s : State) : State :=
  if domainRunning s (feedDomain f) then emission (feedDomain f) s else s

/-- The packets of a line and its emissions, the emissions in order and each as soon as its number of packets has been taken (R43, R63). -/
def readLine (f : Feed) (line : Nat) (control : Bool) (items : List Scanned) (taken : Nat) (emissions : List Nat)
    (s : State) : State :=
  match items with
  | [] => walk emissions (fun _ => emitOnce f) s
  | x :: rest =>
    let s1 := walk (emissions.takeWhile fun n => decide (n ≤ taken)) (fun _ => emitOnce f) s
    readLine f line control rest (taken + 1) (emissions.dropWhile fun n => decide (n ≤ taken))
      (takeScanned f line control x s1)

/-- A line record of feed f (R20, R33). -/
def takeLine (f : Feed) (r : LineRecord) (emitAfter : List Nat) (s : State) : State :=
  if (s.fr.get f).state = .off then sendEmpty f r s
  else
    let line := frameLine (s.fr.get f) r.frameMark
    let s1 := openLine f r.frameMark s
    sendOutput f line r
      (readLine f line (s.mgmt.controlFeed = f) (scanLine r.blanking) 0 (lineEmissions f line emitAfter s1) s1)

end Sys2Proof.Machine
end

