-- ==== Sys2Proof/Machine/Events.lean ====
section
/-! DEFINITION. The meanings of the fourteen events: power, the reset pin, start-up, the feeds, the reference, the silence timer and the image write. -/

namespace Sys2Proof.Machine

/-- An event of a powered part: due work first, then the event, then the commands that the CX can take (R164; log entries 6 and 12). DESIGN CHOICE (log entry 32): at a boundary or frame end that completes a COMMIT or a path check, the next commands are taken after all parts and faults of it, where R66, R105, R141 and R160 let either come first. DESIGN CHOICE (log entry 39): at a domain-8 frame end that completes a COMMIT and lowers the silence count to 0, the commands are taken before the timer expires (SET CONTROL alone takes the expiry first), where R164 and R169 put both at that event and order neither. -/
def event (f : State → State) (s : State) : State := if s.pins.powered then finish (f (settle s)) else s

/-- An event that a held reset pin keeps from the part (R176; log entry 11). -/
def feedEvent (f : State → State) (s : State) : State := event (fun t => if t.pins.resetHeld then t else f t) s

/-- The address pins at these levels (R162, R177). -/
def withAddressPins (pins : BitVec 4) (s : State) : State := s.setPins { s.pins with address := pins }

/-! ## Power, reset pin and start-up -/

/-- POWER_APPLIED: start-up with cause POWER (R176). -/
def execPowerApplied (pins : BitVec 4) (s : State) : Host.Outcome State Fault Refusal :=
  .next (startUp .power ((withAddressPins pins s).setPins { s.pins with powered := true, address := pins }))

/-- The store when power is lost: a write in progress is interrupted, and the image is left not good (R175). -/
def Store.interrupted (t : Store) : Store :=
  match t.state with
  | .writing => Store.start
  | .invalid | .valid => t

/-- POWER_LOSS (R175). -/
def execPowerLoss (s : State) : Host.Outcome State Fault Refusal :=
  .next { s with pins := { s.pins with powered := false }, store := s.store.interrupted }

/-- RESET_PIN_ASSERT: the pin is held, and the part takes no line records and sends no lines (R176). -/
def execResetPinAssert (s : State) : Host.Outcome State Fault Refusal :=
  .next (s.setPins { s.pins with resetHeld := true })

/-- RESET_PIN_RELEASE: start-up with cause PIN (R176). DESIGN CHOICE (log entry 10): a release while the pin is not held starts the part up all the same. -/
def execResetPinRelease (pins : BitVec 4) (s : State) : Host.Outcome State Fault Refusal :=
  let s1 := s.setPins { s.pins with resetHeld := false, address := pins }
  .next (if s.pins.powered then startUp .pin s1 else s1)

/-- COMMAND_START_UP: the start-up that an accepted RESET DEVICE arranged (R172, R176). -/
def execCommandStartUp (pins : BitVec 4) (s : State) : Host.Outcome State Fault Refusal :=
  .next (if s.pins.powered && s.pins.startUpDue then startUp .command (withAddressPins pins s) else s)

/-! ## Feeds -/

/-- LINE_RECORD (R20, R33). -/
def execLineRecord (feed : Feed) (record : LineRecord) (emitAfter : List Nat) (s : State) :
    Host.Outcome State Fault Refusal :=
  .next (feedEvent (takeLine feed record emitAfter) s)

/-- FRAME_BOUNDARY (R3). -/
def execFrameBoundary (feed : Feed) (period : Time) (order : List Part) (s : State) : Host.Outcome State Fault Refusal :=
  .next (feedEvent (frameMark feed period order) s)

/-- LINE_RECORD_GAP (R4). -/
def execLineRecordGap (feed : Feed) (order : List Part) (s : State) : Host.Outcome State Fault Refusal :=
  .next (event (lineGap feed order) s)

/-! ## Reference Unit -/

/-- SET_TICK (R11). -/
def execSetTick (elapsed : Time) (lines : LineSet) (order frameOrder : List Part) (s : State) :
    Host.Outcome State Fault Refusal :=
  .next (event (setTickEvent elapsed lines order frameOrder) s)

/-- REFERENCE_PULSE (R12, R14). -/
def execReferencePulse (elapsed : Time) (owed : OwedTicks) (frameOrder : List Part) (s : State) :
    Host.Outcome State Fault Refusal :=
  .next (event (pulseEvent elapsed owed frameOrder) s)

/-- REFERENCE_WAIT_TIMEOUT (R12). -/
def execReferenceWaitTimeout (elapsed : Time) (owed : OwedTicks) (frameOrder : List Part) (s : State) :
    Host.Outcome State Fault Refusal :=
  .next (event (waitTimeoutEvent elapsed owed frameOrder) s)

/-- REFERENCE_LOST (R13). -/
def execReferenceLost (elapsed : Time) (s : State) : Host.Outcome State Fault Refusal :=
  .next (event (referenceLostEvent elapsed) s)

/-! ## Silence timer and image write -/

/-- CONTROL_SILENCE: the expiry that stands due is taken (R169; log entry 6). -/
def execControlSilence (s : State) : Host.Outcome State Fault Refusal := .next (event id s)

/-- The image of these contents with their check word, as the end of a write leaves it (R175). -/
def ImageContents.sealed (c : ImageContents) : Image := { c with check := Config.checkWord c }

/-- The store when its image write ends: the image holds the written contents with a good check word (R175). -/
def Store.written (t : Store) : Store :=
  match t.state, t.writing with
  | .writing, some c => ⟨.valid, some c.sealed, none⟩
  | _, _ => t

/-- STORE_WRITE_END (R175). -/
def execStoreWriteEnd (s : State) : Host.Outcome State Fault Refusal :=
  .next (if s.pins.powered then { s with store := s.store.written } else s)

end Sys2Proof.Machine
end

