-- ==== Sys2Proof/Machine/Commands.lean ====
section
/-! DEFINITION. The meanings of the management commands. A row is a MANAGE packet of this part's address that arrives outside a line record (log entry 1): it restarts the silence timer, is offered to the queue and is taken by the CX, which acts on it by the rule cited. -/

namespace Sys2Proof.Machine

/-- A management command reaches the MP: with more argument words than a packet may carry it is a packet of a length not allowed (R29; log entry 22), else it is valid. -/
def manage (c : Command) (s : State) : State :=
  if c.args.length ≤ Config.maxArgs then acceptCommand c s else report .managementChecksum (managementSource s) s

/-- The row of a management command (log entries 1 and 11). -/
def manageRow (code tag : Byte) (args : List Word) (s : State) : State := feedEvent (manage ⟨tag, code, args⟩) s

/-- SET FEED (R17). -/
def execSetFeed (tag : Byte) (args : List Word) (s : State) : Host.Outcome State Fault Refusal :=
  .next (manageRow (rowCode .setFeed) tag args s)

/-- READ FEED (R18). -/
def execReadFeed (tag : Byte) (args : List Word) (s : State) : Host.Outcome State Fault Refusal :=
  .next (manageRow (rowCode .readFeed) tag args s)

/-- SET REFERENCE (R19). -/
def execSetReference (tag : Byte) (args : List Word) (s : State) : Host.Outcome State Fault Refusal :=
  .next (manageRow (rowCode .setReference) tag args s)

/-- FLUSH (R70, R71). -/
def execFlush (tag : Byte) (args : List Word) (s : State) : Host.Outcome State Fault Refusal :=
  .next (manageRow (rowCode .flush) tag args s)

/-- READ TAKE POINTS (R72, R73). -/
def execReadTakePoints (tag : Byte) (args : List Word) (s : State) : Host.Outcome State Fault Refusal :=
  .next (manageRow (rowCode .readTakePoints) tag args s)

/-- WRITE ENTRY (R84, R85). -/
def execWriteEntry (tag : Byte) (args : List Word) (s : State) : Host.Outcome State Fault Refusal :=
  .next (manageRow (rowCode .writeEntry) tag args s)

/-- WRITE QUAD MODE (R86). -/
def execWriteQuadMode (tag : Byte) (args : List Word) (s : State) : Host.Outcome State Fault Refusal :=
  .next (manageRow (rowCode .writeQuadMode) tag args s)

/-- COPY BANK (R87). -/
def execCopyBank (tag : Byte) (args : List Word) (s : State) : Host.Outcome State Fault Refusal :=
  .next (manageRow (rowCode .copyBank) tag args s)

/-- READ ENTRY (R89). -/
def execReadEntry (tag : Byte) (args : List Word) (s : State) : Host.Outcome State Fault Refusal :=
  .next (manageRow (rowCode .readEntry) tag args s)

/-- READ QUAD MODES (R90). -/
def execReadQuadModes (tag : Byte) (args : List Word) (s : State) : Host.Outcome State Fault Refusal :=
  .next (manageRow (rowCode .readQuadModes) tag args s)

/-- SET GUARD (R92, R93). -/
def execSetGuard (tag : Byte) (args : List Word) (s : State) : Host.Outcome State Fault Refusal :=
  .next (manageRow (rowCode .setGuard) tag args s)

/-- READ GUARDS (R94). -/
def execReadGuards (tag : Byte) (args : List Word) (s : State) : Host.Outcome State Fault Refusal :=
  .next (manageRow (rowCode .readGuards) tag args s)

/-- COMMIT (R115). -/
def execCommit (tag : Byte) (args : List Word) (s : State) : Host.Outcome State Fault Refusal :=
  .next (manageRow (rowCode .commit) tag args s)

/-- ARM CUE (R116). -/
def execArmCue (tag : Byte) (args : List Word) (s : State) : Host.Outcome State Fault Refusal :=
  .next (manageRow (rowCode .armCue) tag args s)

/-- DISARM CUE (R117). -/
def execDisarmCue (tag : Byte) (args : List Word) (s : State) : Host.Outcome State Fault Refusal :=
  .next (manageRow (rowCode .disarmCue) tag args s)

/-- READ CUES (R118). -/
def execReadCues (tag : Byte) (args : List Word) (s : State) : Host.Outcome State Fault Refusal :=
  .next (manageRow (rowCode .readCues) tag args s)

/-- SET PRESENCE (R141, R142). -/
def execSetPresence (tag : Byte) (args : List Word) (s : State) : Host.Outcome State Fault Refusal :=
  .next (manageRow (rowCode .setPresence) tag args s)

/-- START PATH CHECK (R148 to R152). -/
def execStartPathCheck (tag : Byte) (args : List Word) (s : State) : Host.Outcome State Fault Refusal :=
  .next (manageRow (rowCode .startPathCheck) tag args s)

/-- SET MIXER CHECK (R146). -/
def execSetMixerCheck (tag : Byte) (args : List Word) (s : State) : Host.Outcome State Fault Refusal :=
  .next (manageRow (rowCode .setMixerCheck) tag args s)

/-- READ FAULTS (R159). -/
def execReadFaults (tag : Byte) (args : List Word) (s : State) : Host.Outcome State Fault Refusal :=
  .next (manageRow (rowCode .readFaults) tag args s)

/-- CLEAR FAULTS (R160). -/
def execClearFaults (tag : Byte) (args : List Word) (s : State) : Host.Outcome State Fault Refusal :=
  .next (manageRow (rowCode .clearFaults) tag args s)

/-- SET NOTICES (R161). -/
def execSetNotices (tag : Byte) (args : List Word) (s : State) : Host.Outcome State Fault Refusal :=
  .next (manageRow (rowCode .setNotices) tag args s)

/-- SET CONTROL (R170). -/
def execSetControl (tag : Byte) (args : List Word) (s : State) : Host.Outcome State Fault Refusal :=
  .next (manageRow (rowCode .setControl) tag args s)

/-- READ DEVICE (R171). -/
def execReadDevice (tag : Byte) (args : List Word) (s : State) : Host.Outcome State Fault Refusal :=
  .next (manageRow (rowCode .readDevice) tag args s)

/-- RESET DEVICE (R172). -/
def execResetDevice (tag : Byte) (args : List Word) (s : State) : Host.Outcome State Fault Refusal :=
  .next (manageRow (rowCode .resetDevice) tag args s)

/-- STORE FAILSAFE (R174). -/
def execStoreFailsafe (tag : Byte) (args : List Word) (s : State) : Host.Outcome State Fault Refusal :=
  .next (manageRow (rowCode .storeFailsafe) tag args s)

/-- A command whose code stands in no row of the table (R164). -/
def execUnknownCommand (code tag : Byte) (args : List Word) (s : State) : Host.Outcome State Fault Refusal :=
  .next (manageRow code tag args s)

end Sys2Proof.Machine
end

