-- ==== Sys2Proof/Machine/Dispatch.lean ====
section
/-! DEFINITION. The meaning of each command, one arm per constructor. -/

namespace Sys2Proof.Machine

def exec (i : Instr) (s : State) : Host.Outcome State Fault Refusal :=
  match i with
  | .powerApplied pins => Sys2Proof.Machine.execPowerApplied pins s
  | .powerLoss => Sys2Proof.Machine.execPowerLoss s
  | .resetPinAssert => Sys2Proof.Machine.execResetPinAssert s
  | .resetPinRelease pins => Sys2Proof.Machine.execResetPinRelease pins s
  | .commandStartUp pins => Sys2Proof.Machine.execCommandStartUp pins s
  | .lineRecord feed record emitAfter => Sys2Proof.Machine.execLineRecord feed record emitAfter s
  | .frameBoundary feed period order => Sys2Proof.Machine.execFrameBoundary feed period order s
  | .lineRecordGap feed order => Sys2Proof.Machine.execLineRecordGap feed order s
  | .setTick elapsed lines order frameOrder => Sys2Proof.Machine.execSetTick elapsed lines order frameOrder s
  | .referencePulse elapsed owed frameOrder => Sys2Proof.Machine.execReferencePulse elapsed owed frameOrder s
  | .referenceWaitTimeout elapsed owed frameOrder => Sys2Proof.Machine.execReferenceWaitTimeout elapsed owed frameOrder s
  | .referenceLost elapsed => Sys2Proof.Machine.execReferenceLost elapsed s
  | .controlSilence => Sys2Proof.Machine.execControlSilence s
  | .storeWriteEnd => Sys2Proof.Machine.execStoreWriteEnd s
  | .setFeed tag args => Sys2Proof.Machine.execSetFeed tag args s
  | .readFeed tag args => Sys2Proof.Machine.execReadFeed tag args s
  | .setReference tag args => Sys2Proof.Machine.execSetReference tag args s
  | .flush tag args => Sys2Proof.Machine.execFlush tag args s
  | .readTakePoints tag args => Sys2Proof.Machine.execReadTakePoints tag args s
  | .writeEntry tag args => Sys2Proof.Machine.execWriteEntry tag args s
  | .writeQuadMode tag args => Sys2Proof.Machine.execWriteQuadMode tag args s
  | .copyBank tag args => Sys2Proof.Machine.execCopyBank tag args s
  | .readEntry tag args => Sys2Proof.Machine.execReadEntry tag args s
  | .readQuadModes tag args => Sys2Proof.Machine.execReadQuadModes tag args s
  | .setGuard tag args => Sys2Proof.Machine.execSetGuard tag args s
  | .readGuards tag args => Sys2Proof.Machine.execReadGuards tag args s
  | .commit tag args => Sys2Proof.Machine.execCommit tag args s
  | .armCue tag args => Sys2Proof.Machine.execArmCue tag args s
  | .disarmCue tag args => Sys2Proof.Machine.execDisarmCue tag args s
  | .readCues tag args => Sys2Proof.Machine.execReadCues tag args s
  | .setPresence tag args => Sys2Proof.Machine.execSetPresence tag args s
  | .startPathCheck tag args => Sys2Proof.Machine.execStartPathCheck tag args s
  | .setMixerCheck tag args => Sys2Proof.Machine.execSetMixerCheck tag args s
  | .readFaults tag args => Sys2Proof.Machine.execReadFaults tag args s
  | .clearFaults tag args => Sys2Proof.Machine.execClearFaults tag args s
  | .setNotices tag args => Sys2Proof.Machine.execSetNotices tag args s
  | .setControl tag args => Sys2Proof.Machine.execSetControl tag args s
  | .readDevice tag args => Sys2Proof.Machine.execReadDevice tag args s
  | .resetDevice tag args => Sys2Proof.Machine.execResetDevice tag args s
  | .storeFailsafe tag args => Sys2Proof.Machine.execStoreFailsafe tag args s
  | .unknownCommand code tag args => Sys2Proof.Machine.execUnknownCommand code tag args s

end Sys2Proof.Machine
end

