-- ==== Sys2Proof/WellFormed.lean ====
section
/-! DEFINITION. Which commands are well formed: the ones the outside can send. exec answers the others too. -/

namespace Sys2Proof

/-- The codes of the command code table (R166). -/
def tableCodes : List Byte :=
  [1, 2, 3, 8, 9, 16, 17, 18, 19, 20, 21, 22, 24, 25, 26, 27, 32, 40, 41, 48, 49, 50, 56, 57, 58, 64]

namespace Instr

/-- The argument words of a management command; an event has none (R22). -/
def arguments (c : Instr) : List Word :=
  match c with
  | .powerApplied _ | .powerLoss | .resetPinAssert | .resetPinRelease _ | .commandStartUp _ | .lineRecord _ _ _
  | .frameBoundary _ _ _ | .lineRecordGap _ _ | .setTick _ _ _ _ | .referencePulse _ _ _
  | .referenceWaitTimeout _ _ _ | .referenceLost _ | .controlSilence | .storeWriteEnd => []
  | .setFeed _ args | .readFeed _ args | .setReference _ args | .flush _ args | .readTakePoints _ args
  | .writeEntry _ args | .writeQuadMode _ args | .copyBank _ args | .readEntry _ args | .readQuadModes _ args
  | .setGuard _ args | .readGuards _ args | .commit _ args | .armCue _ args | .disarmCue _ args | .readCues _ args
  | .setPresence _ args | .startPathCheck _ args | .setMixerCheck _ args | .readFaults _ args | .clearFaults _ args
  | .setNotices _ args | .setControl _ args | .readDevice _ args | .resetDevice _ args | .storeFailsafe _ args
  | .unknownCommand _ _ args => args

/-- A management packet carries at most 29 argument words (R22). -/
def argumentsFit (c : Instr) : Bool := decide (c.arguments.length ≤ Config.maxArgs)

/-- A command of the row UNKNOWN_COMMAND has a code that stands in no row of the code table (R164). -/
def codeUnknown (c : Instr) : Bool :=
  match c with
  | .unknownCommand code _ _ => !tableCodes.contains code
  | _ => true

/-- A part that comes once for each set tick of an instant, and so more than once where several ticks are owed (R12). -/
def Part.ofTick (p : Part) : Bool :=
  match p with
  | .emission | .lineWrite _ | .lineOffer _ => true
  | .takePoints | .switch | .clips | .presence _ | .absence _ | .cadence _ | .dueCount | .pathCheck | .settle
  | .leaveLocked | .stop | .silence => false

/-- An order names no part twice but those of set ticks (log entry 3). -/
def namesOnce (order : List Part) : Bool := decide (order.filter fun p => !Part.ofTick p).Nodup

/-- The orders of a command name no part twice but those of set ticks, and the order of what set ticks bring names nothing else (log entry 3). -/
def ordersFit (c : Instr) : Bool :=
  match c with
  | .frameBoundary _ _ order | .lineRecordGap _ order => namesOnce order
  | .setTick _ _ order frameOrder => order.all Part.ofTick && namesOnce frameOrder
  | .referencePulse _ owed frameOrder | .referenceWaitTimeout _ owed frameOrder =>
    owed.order.all Part.ofTick && namesOnce frameOrder
  | _ => true

/-- A line is given at most two emissions, so a line record places at most two (R42). -/
def emissionsFit (c : Instr) : Bool :=
  match c with
  | .lineRecord _ _ emitAfter => decide (emitAfter.length ≤ 2)
  | _ => true

/-- A command is well formed. -/
def wf (c : Instr) : Bool := c.argumentsFit && c.codeUnknown && c.ordersFit && c.emissionsFit

end Instr

end Sys2Proof
end

