-- ==== Sys2Proof/Safety.lean ====
section
/-! DEFINITION. What claims are made in terms of: a step that goes on, a part that can take a command at once, and what holds of every state the part reaches. -/

namespace Sys2Proof.Machine

/-- A state from which the part goes on: its step answers a next state. -/
def Safe (s : State) : Prop := ∃ t, step s = .next t

namespace State

/-- The part takes an event: it has power, the reset pin is not held, and no work is due (R169, R172, R176). -/
def awake (s : State) : Bool := s.pins.powered && !s.pins.resetHeld && !s.pins.startUpDue && !silenceDue s

/-- The CX is IDLE with nothing queued, no answer is to be discarded, and an answer finds room (R163, R164). -/
def idleExecutor (s : State) : Bool :=
  s.mgmt.cx == .idle && s.mgmt.queue.isEmpty && !s.mgmt.discard && decide (s.mgmt.answers.length < Config.heldLimit)

/-- The commands in flight as the blocks that hold them see it: a path check that waits or runs, and the commit requests with source COMMAND, in flight or waiting (R96, R147, R164). -/
def commandsInFlight (s : State) : Nat :=
  (if s.pc.state = .idle then 0 else 1) +
    ((s.ce.inFlight.toList.map fun c => c.requester) ++ s.ce.waiting).countP fun r =>
      match r with
      | .command _ => true
      | .cue _ | .failsafe => false

/-- The CX is EXECUTING exactly while one command is in flight at the PC or the CE (R164). -/
def flightFits (s : State) : Bool :=
  match s.mgmt.cx with
  | .executing => s.commandsInFlight == 1
  | .idle | .stopped => s.commandsInFlight == 0

/-- The part can take and answer a management command at once. -/
def ready (s : State) : Bool := s.awake && s.idleExecutor && s.flightFits

/-- No command waits to be taken: the queue is empty at an IDLE CX, and holds its one command in flight at an EXECUTING one (R163, R164). -/
def noneWaits (s : State) : Bool :=
  match s.mgmt.cx with
  | .idle => s.mgmt.queue.isEmpty
  | .executing => s.mgmt.queue.length == 1
  | .stopped => false

/-- The part takes an event, with a COMMIT or a START PATH CHECK in flight or none, and no command waits to be taken (R164). -/
def quiet (s : State) : Bool := s.awake && s.noneWaits && s.flightFits

/-- One more answer at the end of the AQ (R165). -/
def answering (s : State) (tag code : Byte) (v : Verdict) (words : List Word) : State :=
  s.setMgmt { s.mgmt with answers := s.mgmt.answers ++ [⟨tag, code, v, words⟩] }

/-- The state in which the CX judges a command that a ready part has just received: the silence timer is restarted, and the command is in flight at the head of the queue (R163, R164, R168). -/
def judging (s : State) (c : Command) : State :=
  (restartTimer s).setMgmt { (restartTimer s).mgmt with queue := [c], cx := .executing }

end State

/-- The command that a management row brings to the MP; an event brings none (log entry 1). -/
def commandOf? (c : Instr) : Option Command :=
  match c with
  | .powerApplied _ | .powerLoss | .resetPinAssert | .resetPinRelease _ | .commandStartUp _ | .lineRecord _ _ _
  | .frameBoundary _ _ _ | .lineRecordGap _ _ | .setTick _ _ _ _ | .referencePulse _ _ _
  | .referenceWaitTimeout _ _ _ | .referenceLost _ | .controlSilence | .storeWriteEnd => none
  | .setFeed tag args => some ⟨tag, 1, args⟩
  | .readFeed tag args => some ⟨tag, 2, args⟩
  | .setReference tag args => some ⟨tag, 3, args⟩
  | .flush tag args => some ⟨tag, 8, args⟩
  | .readTakePoints tag args => some ⟨tag, 9, args⟩
  | .writeEntry tag args => some ⟨tag, 16, args⟩
  | .writeQuadMode tag args => some ⟨tag, 17, args⟩
  | .copyBank tag args => some ⟨tag, 18, args⟩
  | .readEntry tag args => some ⟨tag, 19, args⟩
  | .readQuadModes tag args => some ⟨tag, 20, args⟩
  | .setGuard tag args => some ⟨tag, 21, args⟩
  | .readGuards tag args => some ⟨tag, 22, args⟩
  | .commit tag args => some ⟨tag, 24, args⟩
  | .armCue tag args => some ⟨tag, 25, args⟩
  | .disarmCue tag args => some ⟨tag, 26, args⟩
  | .readCues tag args => some ⟨tag, 27, args⟩
  | .setPresence tag args => some ⟨tag, 32, args⟩
  | .startPathCheck tag args => some ⟨tag, 40, args⟩
  | .setMixerCheck tag args => some ⟨tag, 41, args⟩
  | .readFaults tag args => some ⟨tag, 48, args⟩
  | .clearFaults tag args => some ⟨tag, 49, args⟩
  | .setNotices tag args => some ⟨tag, 50, args⟩
  | .setControl tag args => some ⟨tag, 56, args⟩
  | .readDevice tag args => some ⟨tag, 57, args⟩
  | .resetDevice tag args => some ⟨tag, 58, args⟩
  | .storeFailsafe tag args => some ⟨tag, 64, args⟩
  | .unknownCommand code tag args => some ⟨tag, code, args⟩

/-- The blocks of t that start-up sets alike whatever the image holds are as they are after reset (R177, step 7). -/
def blocksStarted (t : State) : Prop :=
  t.fr = State.reset.fr ∧ t.fmt = State.reset.fmt ∧ t.ru = State.reset.ru ∧ t.rings = State.reset.rings ∧
    t.ce = State.reset.ce ∧ t.cues = State.reset.cues ∧ t.ramps = State.reset.ramps ∧ t.clips = State.reset.clips ∧
    t.watch = State.reset.watch ∧ t.cm = State.reset.cm ∧ t.pc = State.reset.pc ∧ t.log = State.reset.log

/-- What start-up from s leaves in t, whatever its cause: the address of the pins' levels, the store judged by its image, the banks and the guard ranges loaded, and every other block started (R177). -/
def StartedUp (pins : BitVec 4) (s t : State) : Prop :=
  t.mgmt = { State.reset.mgmt with address := if pins = 15 then 14 else pins.toNat } ∧
    t.active = t.failsafe ∧ t.s0 = Bank.default ∧ t.s1 = Bank.default ∧ t.tpt = loadedTable t.active ∧
    blocksStarted t ∧ t.lineIn = s.lineIn ∧ t.lineOut = Table.fill 16 0 ∧ t.pending = s.pending ∧
    match s.store.goodImage with
    | some im =>
      t.store = ⟨.valid, some im, none⟩ ∧ t.failsafe = im.bank ∧
        ∀ i, t.guards.get i = ⟨(im.guards.get i).enabled, (im.guards.get i).low, (im.guards.get i).high, false⟩
    | none =>
      t.store = ⟨.invalid, s.store.image, none⟩ ∧ t.failsafe = Bank.default ∧ ∀ i, t.guards.get i = ⟨false, 0, 0, false⟩

/-- The log tells of a fault: a record for its reason and source is present, or overflow is set (R155). -/
def FaultLog.tells (l : FaultLog) (reason : Reason) (src : FaultSource) : Bool :=
  l.overflow || l.records.any fun r => r.isFor reason src

/-- A frame boundary or a stop of domain d switches it in a commit in flight that has not switched it yet, where no request waits: the domain's entries and modes become the snapshot's, and the domain joins those switched, or is the ninth and the commit completes; a COMMIT command in flight alone is then answered, with the words of R115, and the CX is IDLE (R102, R103, R106, R115, R164). -/
def SwitchesCommit (d : Domain) (s t : State) : Prop :=
  ∀ c, s.ce.inFlight = some c → s.ce.waiting = [] → c.switched.get d = false →
    (∀ x, destDomain x = d → t.active.entries.get x = c.snapshot.entries.get x) ∧
    (∀ q, quadDomain q = d → t.active.modes.get q = c.snapshot.modes.get q) ∧
    ((∃ e, e ≠ d ∧ c.switched.get e = false) →
      t.ce = { s.ce with inFlight := some { c with switched := c.switched.set d true } }) ∧
    ((∀ e, e ≠ d → c.switched.get e = true) → t.ce = { s.ce with
      inFlight := none, commitCount := s.ce.commitCount + 1, lastSource := some c.requester, lastResult := .done }) ∧
    ((∀ e, e ≠ d → c.switched.get e = true) → ∀ b q, c.requester = .command b → s.mgmt.queue = [q] →
      t.mgmt.queue = [] ∧ t.mgmt.cx = .idle ∧ t.mgmt.answers = if s.mgmt.discard then s.mgmt.answers else
        s.mgmt.answers ++ [⟨q.tag, q.code, .done, [numWord (stagingCode b), s.ce.commitCount + 1, numWord c.allocated,
          numWord (t.tpt.cells.filter fun tp => tp.state != .free).length]⟩])

/-- What the entry of FR f into LOCKED leaves in t: its rings reset, with their take points FILLING, but for those that a switch at the same event frees, and their watched tracks UNKNOWN; its quads UNKNOWN, with base pending and their cadence trackers in REBASE (R6, R23, R45, R52, R139). -/
def EnteredLocked (f : Feed) (s t : State) : Prop :=
  (∀ r : RingNo, t.rings.get r = if r.val / 4 = f.val then ⟨0, []⟩ else s.rings.get r) ∧
    (∀ q, let k := (t.fr.get f).quads.get q
      k.state = .unknown ∧ k.empty = 0 ∧ k.basePending = true ∧ k.tracker = ⟨false, none, none, 0, false⟩) ∧
    (∀ w : TrackNo, w.val / 16 = f.val → t.watch.tracks.get w = ⟨.unknown, 0, 0⟩) ∧
    (s.ce.inFlight = none ∨ s.ce.waiting = [] → ∀ i, (s.tpt.get i).state ≠ .free → (s.tpt.get i).ring.val / 4 = f.val →
      (t.tpt.get i).state = .filling ∨ (s.ce.inFlight ≠ none ∧ (t.tpt.get i).state = .free))

/-- What leaving LOCKED leaves in t: the feed's quads and watched tracks are UNKNOWN, and its rings' take points STARVED, but for those that a switch at the same event frees (R7, R53, R139). -/
def LeftLocked (f : Feed) (s t : State) : Prop :=
  (∀ q, ((t.fr.get f).quads.get q).state = .unknown ∧ ((t.fr.get f).quads.get q).empty = 0) ∧
    (∀ w : TrackNo, w.val / 16 = f.val → t.watch.tracks.get w = ⟨.unknown, 0, 0⟩) ∧
    (s.ce.inFlight = none ∨ s.ce.waiting = [] → ∀ i, (s.tpt.get i).state ≠ .free → (s.tpt.get i).ring.val / 4 = f.val →
      (t.tpt.get i).state = .starved ∨ (t.tpt.get i).state = .free)

/-- What the stop of feed domain f leaves in t: phase 0, no ramp and no clip mark in the domain, nothing checked by the CM, the domain switched in a commit in flight, and a path check of it aborted (R15, R40, R102, R128, R131, R143, R152). -/
def DomainStopped (f : Feed) (s t : State) : Prop :=
  (t.fmt.get f).phase = 0 ∧
    (∀ k : Fin 16, t.ramps.get (domainDest (feedDomain f) k) = none ∧
      t.clips.get (domainDest (feedDomain f) k) = false) ∧
    (t.cm.rounds.get (feedDomain f)).checked = none ∧ (t.cm.rounds.get (feedDomain f)).mismatch = false ∧
    SwitchesCommit (feedDomain f) s t ∧ t.pc = (pathCheckStop f s).pc ∧
    (s.pc.state ≠ .idle → s.pc.feed = f → let u := pathCheckStop f s
      t.mgmt.queue = u.mgmt.queue ∧ t.mgmt.cx = u.mgmt.cx ∧ t.mgmt.answers = u.mgmt.answers)

/-- What a loss of lock of feed f leaves in t, with the candidate c (R4, R7, R15). -/
def LostLock (f : Feed) (c : Option Format) (s t : State) : Prop :=
  (t.fr.get f).state = .seeking ∧ (t.fr.get f).detected = none ∧ (t.fr.get f).candidate = c ∧
    t.log.tells .lockLost (.inputFeed f) = true ∧ (∀ g, g ≠ f → t.fr.get g = s.fr.get g) ∧ t.rings = s.rings ∧
    DomainStopped f s t ∧ ((s.fr.get f).state = .locked → LeftLocked f s t)

/-! ## Frames of the events -/

/-- Nothing is changed that only power, the pins, start-up and management commands may change: the pins, the staging banks, F, the guard ranges, the store, the waiting commands, and the settings of the MP, the LW and the CM. -/
def KeepsSettings (s t : State) : Prop :=
  t.pins = s.pins ∧ t.s0 = s.s0 ∧ t.s1 = s.s1 ∧ t.failsafe = s.failsafe ∧ t.guards = s.guards ∧ t.store = s.store ∧
    t.pending = s.pending ∧ t.mgmt.address = s.mgmt.address ∧ t.mgmt.controlFeed = s.mgmt.controlFeed ∧
    t.mgmt.answerFeed = s.mgmt.answerFeed ∧ t.mgmt.silenceTime = s.mgmt.silenceTime ∧
    t.mgmt.silenceAction = s.mgmt.silenceAction ∧ t.watch.threshold = s.watch.threshold ∧
    t.watch.frames = s.watch.frames ∧ t.cm.inject = s.cm.inject

/-- The patch, the commit engine, and every output feed, take point and ramp of the domains other than d are as they were; a record of another domain may change only where its ring is one of those named. -/
def KeepsPatch (d : Domain) (ring : RingNo → Prop) (s t : State) : Prop :=
  t.ce = s.ce ∧ t.active = s.active ∧ (∀ g : Feed, feedDomain g ≠ d → t.fmt.get g = s.fmt.get g) ∧
    (∀ x, destDomain x ≠ d → t.ramps.get x = s.ramps.get x) ∧
    ∀ i, (s.tpt.get i).domain ≠ d → ¬ring (s.tpt.get i).ring → t.tpt.get i = s.tpt.get i

/-- An event of feed f leaves the other feeds alone: their FRs, rings and watched tracks, the clip marks and the CM's rounds of the other domains, the RU and the line port; and while no commit is in flight the patch and the other domains. -/
def KeepsOtherFeeds (f : Feed) (s t : State) : Prop :=
  (∀ g, g ≠ f → t.fr.get g = s.fr.get g) ∧ (∀ r, r.val / 4 ≠ f.val → t.rings.get r = s.rings.get r) ∧
    (∀ w, w.val / 16 ≠ f.val → t.watch.tracks.get w = s.watch.tracks.get w) ∧
    (∀ x, destDomain x ≠ feedDomain f → t.clips.get x = s.clips.get x) ∧
    (∀ d, d ≠ feedDomain f → t.cm.rounds.get d = s.cm.rounds.get d) ∧ t.ru = s.ru ∧ t.lineIn = s.lineIn ∧
    t.lineOut = s.lineOut ∧ (s.ce.inFlight = none → KeepsPatch (feedDomain f) (fun r => r.val / 4 = f.val) s t)

/-- An event of domain 8 leaves the feeds alone: the FRs, their rings and watched tracks, the PC, the clip marks and the CM's rounds of the feed domains; and while no commit is in flight the cues, the patch and the feed domains. -/
def KeepsFeeds (s t : State) : Prop :=
  t.fr = s.fr ∧ t.pc = s.pc ∧ (∀ r : RingNo, r.val < 32 → t.rings.get r = s.rings.get r) ∧
    (∀ w : TrackNo, w.val < 128 → t.watch.tracks.get w = s.watch.tracks.get w) ∧
    (∀ x, destDomain x ≠ domain8 → t.clips.get x = s.clips.get x) ∧
    (∀ d, d ≠ domain8 → t.cm.rounds.get d = s.cm.rounds.get d) ∧
    (s.ce.inFlight = none → t.cues = s.cues ∧ KeepsPatch domain8 (fun r => 32 ≤ r.val) s t)

/-! ## What holds of every state the part reaches -/

/-- The Fault Log holds at most 8 records, no two with the same reason and source, and no repeat count above 255; pending implies a record (R155, R158). -/
def FaultLog.wf (l : FaultLog) : Bool :=
  decide (l.records.length ≤ Config.logSize) && decide (l.records.map fun r => (r.reason, r.source)).Nodup
    && l.records.all (fun r => decide (r.repeats ≤ Config.byteMax)) && (!l.pending || !l.records.isEmpty)

/-- The commands and the answers held number at most 32 (R163). -/
def Management.heldFits (m : Management) : Bool := decide (heldCount m ≤ Config.heldLimit)

/-- An IDLE executor has no command waiting (R164), and one that is not IDLE has one in flight at the head (R163). -/
def Management.executorFits (m : Management) : Bool :=
  match m.cx with
  | .idle => m.queue.isEmpty && !m.discard
  | .executing | .stopped => !m.queue.isEmpty

/-- A ring keeps the newest 8192 of the sets written (R49). -/
def Ring.wf (g : Ring) : Bool := g.store.length == min g.written Config.ringDepth

/-- Every ring keeps its form (R49). -/
def State.ringsFit (s : State) : Bool := s.rings.cells.all Ring.wf

/-- An entry: a delay of at most 6000, and no partner without a source (R74). -/
def Entry.wf (e : Entry) : Bool := decide (e.delay ≤ Config.maxDelay) && (e.source.isSome || e.partner.isNone)

/-- Every entry of a bank is well formed (R74). -/
def Bank.wf (b : Bank) : Bool := b.entries.cells.all Entry.wf

/-- The store's state tells what it holds: VALID a good image, WRITING none and the contents of the write, INVALID no good image; and nothing is being written but while WRITING (R173, R175). -/
def Store.fits (t : Store) : Bool :=
  match t.state with
  | .valid => t.goodImage.isSome && t.writing.isNone
  | .writing => t.image.isNone && t.writing.isSome
  | .invalid => t.goodImage.isNone && t.writing.isNone

/-- Every bank the part holds, in RAM, in the store or in a snapshot, is well formed, and so is every old entry (R74). -/
def State.banksFit (s : State) : Bool :=
  s.active.wf && s.s0.wf && s.s1.wf && s.failsafe.wf && s.store.image.all (fun i => i.bank.wf)
    && s.store.writing.all (fun i => i.bank.wf) && s.ce.inFlight.all (fun c => c.snapshot.wf)
    && s.ramps.cells.all (fun r => r.all fun k => k.old.wf)

/-- No two records that are not FREE have the same ring and domain (R54). -/
def pairsDistinct (t : Table 64 TakePoint) : Bool := decide (heldPairs t).Nodup

/-- A record that is not FREE has a reference or is reserved, and a record is reserved only while a commit is in flight (R56, R106). -/
def State.recordsUsed (s : State) : Bool :=
  s.tpt.cells.all fun tp =>
    (tp.state == .free || decide (1 ≤ tp.references) || tp.reserved) && (!tp.reserved || s.ce.inFlight.isSome)

/-- A RUNNING record's ring holds 96 sets or more, its take is not ahead of the written count, and its occupancy is at most 2047 (R50, R61, R62). -/
def State.takesFit (s : State) : Bool :=
  s.tpt.cells.all fun tp =>
    tp.state != .running ||
      decide (Config.centre ≤ (s.rings.get tp.ring).written ∧ tp.take ≤ (s.rings.get tp.ring).written ∧
        occupancy s tp < Config.overrun)

/-- An FR: it is OFF exactly when it is disabled, it has a detected format exactly in a running state and a candidate only in SEEKING; its settle counts are at most 15 and its empty-frame counts at most 2; and outside LOCKED its quads are UNKNOWN (R2, R7, R10, R17). -/
def Receiver.wf (r : Receiver) : Bool :=
  (r.enabled == (r.state != .off)) && (r.detected.isSome == runningState r.state)
    && (r.candidate.isNone || r.state == .seeking) && decide (r.settleFrames ≤ 15) && decide (r.settleRemaining ≤ 15)
    && r.quads.cells.all (fun q => decide (q.empty ≤ 2) && (r.state == .locked || (q.state == .unknown && q.empty == 0)))

/-- The phase of a feed domain lies in the cadence of its detected format, and is 0 where there is none (R15, R40). -/
def phaseFits (r : Receiver) (o : Formatter) : Bool :=
  match r.detected with
  | some fm => decide (o.phase < cadenceLength fm)
  | none => o.phase == 0

/-- Every FR and its domain's phase are in form, and the control feed is not OFF (R17, R170). -/
def State.feedsFit (s : State) : Bool :=
  (List.finRange 8).all (fun f => (s.fr.get f).wf && phaseFits (s.fr.get f) (s.fmt.get f))
    && (s.fr.get s.mgmt.controlFeed).state != .off

/-- While the CE is IDLE nothing waits for it, and at most one failsafe request waits (R96). -/
def Engine.orderFits (e : Engine) : Bool :=
  (e.inFlight.isSome || e.waiting.isEmpty) && decide (e.waiting.count .failsafe ≤ 1)

/-- The guard ranges the part holds, in RAM and in the store: low is not above high (R91, R92). -/
def State.guardsFit (s : State) : Bool :=
  s.guards.cells.all (fun g => decide (g.low ≤ g.high))
    && s.store.image.all (fun i => i.guards.cells.all fun g => decide (g.low ≤ g.high))
    && s.store.writing.all (fun i => i.guards.cells.all fun g => decide (g.low ≤ g.high))

/-- The settings of the Level Watch lie in their ranges (R134). -/
def Watch.settingsFit (w : Watch) : Bool :=
  decide (w.threshold ≤ 8388607) && decide (1 ≤ w.frames) && decide (w.frames ≤ Config.byteMax)

end Sys2Proof.Machine
end

