-- ==== Sys2Proof/Certificates/Slice0/Obligations.lean ====
section
/-! DEFINITION. The statements for the provers: what the commands of the block do, and what every step keeps. -/

open Sys2Proof Sys2Proof.Machine

/-! ## The queue of commands, start-up, power and the pins -/

/-- The front command of the queue is taken with the queue's rest. On an empty queue the block idles, which is the model's choice (log entry 9). -/
def Obligations.StepTakesQueueFront : Prop :=
  (∀ (c : Instr) (rest : List Instr) (s : State), s.pending = c :: rest → step s = exec c { s with pending := rest }) ∧
    ∀ s : State, s.pending = [] → step s = .next s

/-- What reset leaves, register by register, where the spec gives the value (R2, R11, R23, R33, R40, R45, R49, R54, R78, R91, R95, R108, R119, R134, R143, R147, R154, R162 to R164, R168, R173, R177). That the part reset to is one that was never stored, at its first power-on, is the model's choice (log entries 8 and 9); with it come the store INVALID, the cause POWER, the default banks, the disabled guard ranges and the FREE records. -/
def Obligations.ResetLeavesStartUpValues : Prop :=
  let s := State.reset
  (∀ f, (s.fr.get f).enabled = true ∧ (s.fr.get f).state = .seeking ∧ (s.fr.get f).expected = none ∧
    (s.fr.get f).settleFrames = 2 ∧ (s.fr.get f).settleRemaining = 0 ∧ (s.fr.get f).detected = none ∧
    (s.fr.get f).candidate = none ∧ (s.fmt.get f).phase = 0 ∧
    ∀ q, ((s.fr.get f).quads.get q).state = .unknown ∧ ((s.fr.get f).quads.get q).empty = 0 ∧
      ((s.fr.get f).quads.get q).lastCount = 0 ∧ ((s.fr.get f).quads.get q).basePending = true ∧
      ((s.fr.get f).quads.get q).tracker = ⟨false, none, none, 0, false⟩ ∧ (s.fmt.get f).built.get q = 0) ∧
  (s.ru.state = .free ∧ s.ru.format = 0 ∧ s.ru.pendingFormat = none ∧ s.ru.frameCount = 0 ∧ s.ru.phase = 0 ∧
    s.ru.ticks = 0) ∧
  (∀ r, (s.rings.get r).written = 0) ∧
  (∀ i, s.tpt.get i = ⟨.free, 0, 0, 0, 0, false, 0, 0, 0⟩) ∧
  (∀ b x, (bankOf s b).entries.get x = ⟨none, 16384, false, none, 0, .short, false⟩) ∧
  (∀ b q, (bankOf s b).modes.get q = .pass) ∧
  (∀ i, s.guards.get i = ⟨false, 0, 0, false⟩) ∧
  (s.ce.inFlight = none ∧ s.ce.waiting = [] ∧ s.ce.commitCount = 0 ∧ s.ce.lastSource = none ∧
    s.ce.lastResult = .none) ∧
  (∀ c, s.cues.get c = ⟨.idle, .s0, 0, ⟨0, 0, 0, 0⟩, 0, 0, false, .none⟩) ∧
  (∀ x, s.ramps.get x = none ∧ s.clips.get x = false) ∧
  (s.watch.threshold = 8192 ∧ s.watch.frames = 125 ∧ ∀ w, s.watch.tracks.get w = ⟨.unknown, 0, 0⟩) ∧
  (s.cm.inject = false ∧ ∀ d, (s.cm.rounds.get d).cursor = 16 * d.val ∧ (s.cm.rounds.get d).count = 0 ∧
    (s.cm.rounds.get d).checked = none ∧ (s.cm.rounds.get d).mismatch = false) ∧
  (s.pc.state = .idle ∧ (∀ q, s.pc.quads.get q = ⟨false, 0, none, false, false, false⟩) ∧
    ∀ t, s.pc.tracks.get t = false) ∧
  s.log = ⟨[], false, true, false⟩ ∧
  (s.mgmt.controlFeed = 0 ∧ s.mgmt.answerFeed = 0 ∧ s.mgmt.silenceTime = .off ∧ s.mgmt.silenceAction = .hold ∧
    s.mgmt.queue = [] ∧ s.mgmt.cx = .idle ∧ s.mgmt.discard = false ∧ s.mgmt.notice = none ∧ s.mgmt.answers = [] ∧
    s.mgmt.timerRunning = false ∧ s.mgmt.remaining = 0) ∧
  s.store.state = .invalid ∧ s.pins.cause = .power

/-- POWER_APPLIED, RESET_PIN_RELEASE and COMMAND_START_UP start the part up, each with its cause, and otherwise alike (R172, R176, R177); an image is good when its check word agrees with its contents (R173). A release without power only lets the pin go (log entry 12), and one while the pin is not held starts the part up all the same (log entry 10). -/
def Obligations.StartUpLoadsPart : Prop :=
  ∀ (pins : BitVec 4) (s : State),
    (∃ t, exec (.powerApplied pins) s = .next t ∧ t.pins = ⟨true, s.pins.resetHeld, pins, .power, false⟩ ∧
      StartedUp pins s t) ∧
    (s.pins.powered = true → ∃ t, exec (.resetPinRelease pins) s = .next t ∧
      t.pins = ⟨true, false, pins, .pin, false⟩ ∧ StartedUp pins s t) ∧
    (s.pins.powered = false → exec (.resetPinRelease pins) s =
      .next (s.setPins { s.pins with resetHeld := false, address := pins })) ∧
    (s.pins.powered = true → s.pins.startUpDue = true → ∃ t, exec (.commandStartUp pins) s = .next t ∧
      t.pins = ⟨true, s.pins.resetHeld, pins, .command, false⟩ ∧ StartedUp pins s t)

/-- Start-up allocates a record for each pair of the patch it loads, records 0 to n - 1, each FILLING at take 0 with the references counted (R178). -/
def Obligations.StartUpAllocatesRecords : Prop :=
  ∀ b : Bank, pairNeed b ≤ 64 →
    (∀ i : RecordNo, ((loadedTable b).get i).state = .free ↔ pairNeed b ≤ i.val) ∧
    (∀ i : RecordNo, i.val < pairNeed b →
      let tp := (loadedTable b).get i
      tp.state = .filling ∧ tp.take = 0 ∧ tp.reserved = false ∧ tp.slipsAhead = 0 ∧ tp.slipsBack = 0 ∧
        tp.recentres = 0 ∧ tp.references = (bankPairs b).count (tp.ring, tp.domain) ∧ 1 ≤ tp.references) ∧
    ∀ p ∈ bankPairs b, ∃ i : RecordNo, ((loadedTable b).get i).holds p = true

/-- POWER_LOSS and STORE_WRITE_END: a loss of power interrupts a write, whose end leaves an image of the written contents with a good check word (R175). RESET_PIN_ASSERT holds the pin, and while it is held no line record is taken and no line is sent (R176). That a frame mark and a management row have no effect either is the model's choice (log entry 11), and so it is that a command whose condition does not hold changes nothing: without power every command but those of power and the reset pin, a start-up that nothing arranged, a write end with no write, an expiry that is not due (log entries 10 and 12). That an interrupted write leaves the image as none is log entry 20's reading of R175. -/
def Obligations.PowerLossHeldPinAndWriteEnd : Prop :=
  (∀ s : State,
    exec .powerLoss s = .next { s with
      pins := { s.pins with powered := false }
      store := if s.store.state = .writing then ⟨.invalid, none, none⟩ else s.store } ∧
    ∀ k, s.pins.powered = true → s.store.state = .writing → s.store.writing = some k →
      ∃ im : Image, exec .storeWriteEnd s = .next { s with store := ⟨.valid, some im, none⟩ } ∧
        im.toImageContents = k ∧ im.good = true) ∧
  (∀ s : State,
    exec .resetPinAssert s = .next (s.setPins { s.pins with resetHeld := true }) ∧
    (s.pins.powered = true → s.pins.resetHeld = true → s.pins.startUpDue = false → silenceDue s = false →
      s.mgmt.queue = [] →
      (∀ f r e, exec (.lineRecord f r e) s = .next s) ∧ (∀ f p o, exec (.frameBoundary f p o) s = .next s) ∧
        ∀ (c : Instr) (k : Command), commandOf? c = some k → exec c s = .next s)) ∧
  (∀ (c : Instr) (s : State), s.pins.powered = false →
    match c with
    | .powerApplied _ | .powerLoss | .resetPinAssert | .resetPinRelease _ => True
    | _ => exec c s = .next s) ∧
  (∀ (pins : BitVec 4) (s : State), s.pins.startUpDue = false → exec (.commandStartUp pins) s = .next s) ∧
  (∀ s : State, s.store.state ≠ .writing → exec .storeWriteEnd s = .next s) ∧
  ∀ s : State, s.quiet = true → exec .controlSilence s = .next s

/-- What an event leaves alone. FRAME_BOUNDARY and LINE_RECORD_GAP of a feed, and LINE_RECORD of a feed that is not the control feed, change nothing of the other feeds (R8, R15); SET_TICK, REFERENCE_PULSE, REFERENCE_WAIT_TIMEOUT and REFERENCE_LOST change nothing of the feeds (R11 to R14); and none of them changes a setting. -/
def Obligations.EventsKeepTheRest : Prop :=
  ∀ s : State, s.quiet = true →
    (∀ (f : Feed) (period : Time) (order : List Part), ∃ t, exec (.frameBoundary f period order) s = .next t ∧
      KeepsSettings s t ∧ KeepsOtherFeeds f s t) ∧
    (∀ (f : Feed) (order : List Part), ∃ t, exec (.lineRecordGap f order) s = .next t ∧
      KeepsSettings s t ∧ KeepsOtherFeeds f s t) ∧
    (∀ (f : Feed) (r : LineRecord) (e : List Nat), s.mgmt.controlFeed ≠ f → ∃ t, exec (.lineRecord f r e) s = .next t ∧
      KeepsSettings s t ∧ (∀ g, g ≠ f → t.fr.get g = s.fr.get g) ∧
      (∀ g : RingNo, g.val / 4 ≠ f.val → t.rings.get g = s.rings.get g) ∧
      (∀ w, w.val / 16 ≠ f.val → t.watch.tracks.get w = s.watch.tracks.get w) ∧ t.ru = s.ru ∧ t.lineIn = s.lineIn ∧
      t.lineOut = s.lineOut) ∧
    (∀ (e : Time) (lines : LineSet) (order frameOrder : List Part), ∃ t,
      exec (.setTick e lines order frameOrder) s = .next t ∧ KeepsSettings s t ∧ KeepsFeeds s t) ∧
    (∀ (e : Time) (owed : OwedTicks) (frameOrder : List Part),
      (∃ t, exec (.referencePulse e owed frameOrder) s = .next t ∧ KeepsSettings s t ∧ KeepsFeeds s t) ∧
      ∃ t, exec (.referenceWaitTimeout e owed frameOrder) s = .next t ∧ KeepsSettings s t ∧ KeepsFeeds s t) ∧
    ∀ e : Time, ∃ t, exec (.referenceLost e) s = .next t ∧ KeepsSettings s t ∧ KeepsFeeds s t ∧ t.lineIn = s.lineIn ∧
      t.lineOut = s.lineOut ∧ t.rings = s.rings ∧ t.tpt = s.tpt

/-! ## Packets in the line blanking -/

/-- Packets written one after another, with words of 0 behind them, are the packets that the scan finds (R20, R22); and a SOUND packet reads back as it was made: header, checksum, every field of its first content word, and every sample of its one or two sets (R21, R22). The layouts, bit by bit: the marker and the words of a packet, the fields of a header and the classes they assign, the checksum, the first content word of a SOUND packet, and the six words of each of its sets (R21, R22). -/
def Obligations.WrittenPacketsReadBack : Prop :=
  (∀ p : Packet, p.words = 0xA5C3 :: p.header :: p.content ++ [p.checksum]) ∧
  (∀ h : Word, headerField h = h.toNat / 256 % 16 ∧ headerLength h = h.toNat % 256 ∧
    classOf h = match h.toNat / 4096 with
      | 1 => .sound
      | 2 => .manage
      | 3 => .answer
      | 4 => .stamp
      | 5 => .clear
      | _ => .other) ∧
  (∀ c f n, c < 16 → f < 16 → n < 256 → (makeHeader c f n).toNat = 4096 * c + 256 * f + n) ∧
  (∀ (h : Word) (content : List Word),
    (checksumOf h content).toNat = (h.toNat + (content.map BitVec.toNat).sum) % 65536) ∧
  (∀ p : Packet, let w := p.content.getD 0 0
    let h := p.soundHead
    h.count.toNat = w.toNat / 4096 ∧ h.phase.toNat = w.toNat / 512 % 8 ∧ h.first = w.getLsbD 8 ∧
      h.setCount.toNat = w.toNat / 64 % 4 ∧ h.wide = w.getLsbD 5 ∧ (∀ i : Fin 4, h.active.get i = w.getLsbD (1 + i.val)) ∧
      p.soundSets.length = h.setCount.toNat ∧ ∀ i x, p.soundSets[i]? = some x →
        let word (n : Nat) := (p.content.getD (1 + 6 * i + n) 0).toNat
        x.active = h.active ∧ (x.samples.get 0).toNat = word 0 * 256 + word 1 / 256 ∧
          (x.samples.get 1).toNat = word 1 % 256 * 65536 + word 2 ∧
          (x.samples.get 2).toNat = word 3 * 256 + word 4 / 256 ∧
          (x.samples.get 3).toNat = word 4 % 256 * 65536 + word 5) ∧
  (∀ (ps : List Packet) (n : Nat), (∀ p ∈ ps, p.content.length = headerLength p.header) →
    scanLine (ps.flatMap Packet.words ++ List.replicate n 0) = ps.map .packet) ∧
  (∀ (q : Quad) (h : SoundHead) (sets : List (Table 4 Sample)), sets.length = h.setCount.toNat → 1 ≤ sets.length →
    sets.length ≤ 2 →
    let p := makeSound q h sets
    p.good = true ∧ classOf p.header = .sound ∧ p.quad? = some q ∧ headerLength p.header = 1 + 6 * sets.length ∧
      p.content.length = headerLength p.header ∧ p.soundLengthAgrees = true ∧ p.soundHead = h ∧
      (p.content.getD 0 0).getLsbD 0 = false ∧ p.soundSets = sets.map fun x => ⟨x, h.active⟩)

/-- A truncated packet ends the scan and is not read: in LOCKED one of class SOUND that names quad 0 to 3 records PACKET MISPLACED, and any other changes nothing (R20). -/
def Obligations.TruncatedPacketEndsScan : Prop :=
  (∀ (h : Word) (rest : List Word), rest.length ≤ headerLength h →
    scanLine (Config.marker :: h :: rest) = [.truncated (some h)]) ∧
  ∀ (f : Feed) (line : Nat) (control : Bool) (h : Word) (s : State),
    (∀ q : Quad, (s.fr.get f).state = .locked → classOf h = .sound → headerField h = q.val →
      takeScanned f line control (.truncated (some h)) s = report .packetMisplaced (.inputQuad f q) s) ∧
    ((s.fr.get f).state ≠ .locked ∨ classOf h ≠ .sound ∨ 4 ≤ headerField h →
      takeScanned f line control (.truncated (some h)) s = s)

/-- In LOCKED a SOUND packet with a bad checksum is discarded: SOUND CHECKSUM is recorded, base pending is set and its cadence tracker begins afresh; it claims nothing and writes nothing (R24, R45). With a good checksum it is misplaced when its quad has claimed the line, when its set count is 0 or 3, when its content length is not 1 + 6 × set count, or on a quiet line: PACKET MISPLACED is recorded, nothing is written and no tracking changes. Misplaced or not, its quad has then claimed the line (R25). -/
def Obligations.LockedSoundIsJudged : Prop :=
  (∀ (f : Feed) (line : Nat) (q : Quad) (p : Packet) (s : State), p.good = false →
    let t := lockedSound f line q p s
    (t.fr.get f).quads.get q =
        { (s.fr.get f).quads.get q with basePending := true, tracker := ⟨false, none, none, 0, false⟩ } ∧
      (∀ q', q' ≠ q → (t.fr.get f).quads.get q' = (s.fr.get f).quads.get q') ∧
      (t.fr.get f).claimed = (s.fr.get f).claimed ∧ (∀ g, g ≠ f → t.fr.get g = s.fr.get g) ∧
      t.rings = s.rings ∧ t.tpt = s.tpt ∧ t.watch = s.watch ∧
      t.log = (report .soundChecksum (.inputQuad f q) s).log) ∧
  (∀ (f : Feed) (line : Nat) (q : Quad) (p : Packet) (s : State), p.good = true →
    let t := lockedSound f line q p s
    (t.fr.get f).claimed = (s.fr.get f).claimed.set q true ∧
    ((s.fr.get f).claimed.get q = true ∨ p.soundHead.setCount = 0 ∨ p.soundHead.setCount = 3 ∨
        headerLength p.header ≠ 1 + 6 * p.soundHead.setCount.toNat ∨ line ≤ 2 →
      t.log = (report .packetMisplaced (.inputQuad f q) s).log ∧ (t.fr.get f).quads = (s.fr.get f).quads ∧
        (∀ g, g ≠ f → t.fr.get g = s.fr.get g) ∧ t.rings = s.rings ∧ t.tpt = s.tpt ∧ t.watch = s.watch))

/-- A SOUND packet in a line: one that names no quad is dropped; the first of each quad is remembered in a running state, and outside LOCKED that is all; in LOCKED one that passes its checks claims the line for its quad, has its count checked and is accepted (R23, R26 to R28). The sequence check: SEQUENCE GAP is recorded when base is not pending and the count is not the last count plus 1 modulo 16; either way base pending is cleared and the count becomes the last (R26). An accepted packet: its quad is PRESENT with empty-frame count 0 and has carried an accepted packet in the frame, its ring, reset first when the quad was not PRESENT, has its sets written in order with the active flags of the packet, its sets are offered to the Level Watch, and no other ring changes (R10, R27, R49, R135). A quad that was not PRESENT has its ring reset first, so that the ring's take points that are not FREE, STARVED ones too, go to FILLING and its watched tracks become UNKNOWN; for a PRESENT quad the write alone may re-centre records (R10, R52, R62, R139). -/
def Obligations.AcceptedPacketIsCheckedAndWritten : Prop :=
  (∀ (f : Feed) (line : Nat) (control : Bool) (p : Packet) (s : State), classOf p.header = .sound →
    let after := takePacket f line control p s
    let running := (s.fr.get f).state = .settling ∨ (s.fr.get f).state = .locked ∨ (s.fr.get f).state = .wrongFormat
    (4 ≤ headerField p.header → after = s) ∧
    ∀ q : Quad, headerField p.header = q.val → ∃ s1 : State,
      (running → (s.fr.get f).remembered.get q = none →
        s1 = s.setFr f { s.fr.get f with remembered := (s.fr.get f).remembered.set q (some p) }) ∧
      (¬running ∨ (s.fr.get f).remembered.get q ≠ none → s1 = s) ∧
      ((s.fr.get f).state ≠ .locked → after = s1) ∧
      ((s.fr.get f).state = .locked → after = lockedSound f line q p s1 ∧
        (p.checksum = checksumOf p.header p.content → (s.fr.get f).claimed.get q = false →
          p.soundHead.setCount = 1 ∨ p.soundHead.setCount = 2 →
          headerLength p.header = 1 + 6 * p.soundHead.setCount.toNat → 2 < line →
          after = acceptSound f q p (checkSequence f q p.soundHead.count
            (s1.setFr f { s1.fr.get f with claimed := (s1.fr.get f).claimed.set q true }))))) ∧
  (∀ (f : Feed) (q : Quad) (count : BitVec 4) (s : State),
    let k := (s.fr.get f).quads.get q
    let t := checkSequence f q count s
    (t.fr.get f).quads.get q = { k with basePending := false, lastCount := count } ∧
      (∀ q', q' ≠ q → (t.fr.get f).quads.get q' = (s.fr.get f).quads.get q') ∧
      t.log = if k.basePending = false ∧ count ≠ k.lastCount + 1 then (report .sequenceGap (.inputQuad f q) s).log
        else s.log) ∧
  (∀ (f : Feed) (q : Quad) (p : Packet) (s : State),
    let k := (s.fr.get f).quads.get q
    let before : Ring := if k.state = .present then s.rings.get (feedRing f q) else ⟨0, []⟩
    let t := acceptSound f q p s
    (k.state = .present → makePresent f q s = s ∧ t.tpt = (writeEvent (feedRing f q) p.soundSets s).tpt ∧
      t.log = (writeEvent (feedRing f q) p.soundSets s).log) ∧
    (k.state ≠ .present → makePresent f q s = resetRing (feedRing f q) (s.setFr f { s.fr.get f with
        quads := (s.fr.get f).quads.set q { k with state := .present } }) ∧ t.log = s.log ∧
      (∀ i, t.tpt.get i = if (s.tpt.get i).ring = feedRing f q ∧ (s.tpt.get i).state ≠ .free then
        { s.tpt.get i with state := .filling } else s.tpt.get i) ∧
      ∀ w, trackRing w = feedRing f q → (t.watch.tracks.get w).presence = .unknown ∧ (t.watch.tracks.get w).below = 0) ∧
    ((t.fr.get f).quads.get q).state = .present ∧ ((t.fr.get f).quads.get q).empty = 0 ∧
      ((t.fr.get f).quads.get q).carried = true ∧ t.watch = (offerSets (feedRing f q) p.soundSets (makePresent f q s)).watch ∧
      ((t.fr.get f).quads.get q).lastCount = k.lastCount ∧ ((t.fr.get f).quads.get q).basePending = k.basePending ∧
      ((t.fr.get f).quads.get q).tracker = k.tracker.tallied p.soundHead ∧
      (t.rings.get (feedRing f q)).written = before.written + p.soundHead.setCount.toNat ∧
      (before.store.length ≤ 8192 →
        (t.rings.get (feedRing f q)).store = (p.soundSets.reverse ++ before.store).take 8192) ∧
      (∀ r, r ≠ feedRing f q → t.rings.get r = s.rings.get r) ∧ ∀ g, g ≠ f → t.fr.get g = s.fr.get g)

/-- On the control feed a MANAGE or CLEAR packet is sorted by its address, and by its checksum and length: acted on, consumed with a fault, or passed through (R29). A MANAGE packet that is acted on restarts the silence timer, has its command of tag, code and words offered to the queue, and the CX takes what it can (R22, R163, R164, R168); a CLEAR packet clears the queue (R167). A STAMP packet is handed to the CU in LOCKED when its checksum is good, its content length 2 and its fields in range, and is passed through in any case (R31, R32); ANSWER and OTHER packets are passed through (R30, R32). In a running state the first packet to be passed through takes the line's place, and in SEEKING and OFF none does (R9, R32). -/
def Obligations.ExtraClassPacketsSorted : Prop :=
  (∀ (f : Feed) (line : Nat) (p : Packet) (s : State), classOf p.header = .manage ∨ classOf p.header = .clear →
    let lengthAllowed := if classOf p.header = .manage then 1 ≤ headerLength p.header ∧ headerLength p.header ≤ 30
      else headerLength p.header = 0
    let valid := p.checksum = checksumOf p.header p.content ∧ lengthAllowed
    let faulted := report .managementChecksum (.management s.mgmt.controlFeed)
    let word := p.content.getD 0 0
    let acted (t : State) := if classOf p.header = .clear then clearPacket t
      else finish (offerCommand ⟨word.extractLsb' 8 8, word.extractLsb' 0 8, p.content.drop 1⟩ (restartTimer t))
    (headerField p.header = s.mgmt.address →
      (valid → takePacket f line true p s = acted s) ∧
        (¬valid → takePacket f line true p s = faulted s)) ∧
    (headerField p.header = 15 → s.mgmt.address ≠ 15 →
      (valid → takePacket f line true p s = acted (passThrough f p s)) ∧
        (¬valid → takePacket f line true p s = faulted (passThrough f p s))) ∧
    (headerField p.header ≠ s.mgmt.address → headerField p.header ≠ 15 →
      takePacket f line true p s = passThrough f p s) ∧
    takePacket f line false p s = passThrough f p s) ∧
  (∀ (f : Feed) (line : Nat) (control : Bool) (p : Packet) (s : State),
    let w0 := p.content.getD 0 0
    let w1 := p.content.getD 1 0
    let stamp : Stamp := ⟨(w0.extractLsb' 8 8).toNat, (w0.extractLsb' 0 8).toNat, (w1.extractLsb' 8 8).toNat,
      (w1.extractLsb' 0 8).toNat⟩
    let fits (fm : Format) := (s.fr.get f).state = .locked ∧ p.checksum = checksumOf p.header p.content ∧
      headerLength p.header = 2 ∧ stamp.hours < 24 ∧ stamp.minutes < 60 ∧ stamp.seconds < 60 ∧ stamp.frames < rateOf fm
    (classOf p.header = .stamp → ∀ fm, (s.fr.get f).detected = some fm →
      (fits fm → takePacket f line control p s =
        passThrough f p (evaluateCue f (rateOf fm) stamp 1 (evaluateCue f (rateOf fm) stamp 0 s))) ∧
      (¬fits fm → takePacket f line control p s = passThrough f p s)) ∧
    (classOf p.header = .stamp → (s.fr.get f).detected = none → takePacket f line control p s = passThrough f p s) ∧
    (classOf p.header = .answer ∨ classOf p.header = .other → takePacket f line control p s = passThrough f p s)) ∧
  (∀ (f : Feed) (p : Packet) (s : State),
    let running := (s.fr.get f).state = .settling ∨ (s.fr.get f).state = .locked ∨ (s.fr.get f).state = .wrongFormat
    (running → (s.fr.get f).place = none → passThrough f p s = s.setFr f { s.fr.get f with place := some p }) ∧
      ((s.fr.get f).place ≠ none → passThrough f p s = s) ∧ (¬running → passThrough f p s = s))

/-! ## The output line -/

/-- What the sound slots carry, by the mode in force (R34), and the fields and the samples of a built packet (R35). -/
def Obligations.SoundSlotsAndBuiltPackets : Prop :=
  (∀ (f : Feed) (line : Nat) (q : Quad) (s : State),
    let mode := s.active.modes.get (outQuad f q)
    let slot := (soundSlots f line s).get q
    (line ≤ 2 → slot = none) ∧ (mode = .remove → slot = none) ∧
      (2 < line → mode = .pass → slot = (s.fr.get f).remembered.get q) ∧
      (2 < line → mode = .embed24 ∨ mode = .embed20 → (s.fmt.get f).sets = [] → slot = none) ∧
      (2 < line → mode = .embed24 ∨ mode = .embed20 → (s.fmt.get f).sets ≠ [] → slot = some (builtPacket f q s))) ∧
  (∀ (f : Feed) (q : Quad) (s : State), let o := s.fmt.get f
    1 ≤ o.sets.length → o.sets.length ≤ 2 → o.phase < 5 →
    let p := builtPacket f q s
    p.good = true ∧ classOf p.header = .sound ∧ p.quad? = some q ∧ headerLength p.header = 1 + 6 * o.sets.length ∧
      p.soundHead.count = o.built.get q ∧ p.soundHead.phase.toNat = o.phase ∧
      p.soundHead.first = !o.firstSent.get q ∧ p.soundHead.setCount.toNat = o.sets.length ∧
      p.soundHead.wide = (s.active.modes.get (outQuad f q) == .embed24) ∧
      (∀ i, p.soundHead.active.get i = (s.active.entries.get (quadDest (outQuad f q) i)).source.isSome) ∧
      p.soundSets.map (fun x => x.samples) = o.sets.map fun v => Table.tab 4 fun i => v.get (quadTrack q i))

/-- The extra slot: the pass-through place first, then on the answer feed the notice, then the first answer, which leave the AQ; and the layout of an answer and of a notice (R37, R38). That a leaving notice carries the log flags as they stood before the notice that may follow it is dealt with is the model's choice (log entry 4). The codes of the outcomes, and of the reasons and sources of faults (R153, R165). -/
def Obligations.ExtraSlotAndAnswerLayout : Prop :=
  (∀ (f : Feed) (s : State),
    (∀ p, (s.fr.get f).place = some p → extraSlot f s = some p ∧ drainQueue f s = s) ∧
    ((s.fr.get f).place = none → s.mgmt.answerFeed ≠ f → extraSlot f s = none ∧ drainQueue f s = s) ∧
    (∀ n, (s.fr.get f).place = none → s.mgmt.answerFeed = f → s.mgmt.notice = some n →
      extraSlot f s = some (packetOfNotice s n) ∧ (drainQueue f s).mgmt.answers = s.mgmt.answers) ∧
    ((s.fr.get f).place = none → s.mgmt.notice = none → s.mgmt.answers = [] → extraSlot f s = none) ∧
    (∀ a rest, (s.fr.get f).place = none → s.mgmt.answerFeed = f → s.mgmt.notice = none → s.mgmt.answers = a :: rest →
      extraSlot f s = some (packetOfAnswer s a) ∧ drainQueue f s = s.setMgmt { s.mgmt with answers := rest })) ∧
  (∀ (s : State) (a : Answer) (n : Notice), s.mgmt.address < 15 → a.words.length ≤ 28 →
    let flags : Byte := BitVec.ofNat 8
      ((if s.log.records = [] then 0 else 1) + (if s.log.overflow then 2 else 0) + (if s.log.pending then 4 else 0))
    let p := packetOfAnswer s a
    let w := packetOfNotice s n
    p.good = true ∧ classOf p.header = .answer ∧ headerField p.header = s.mgmt.address ∧
      headerLength p.header = 2 + a.words.length ∧
      p.content = (a.tag ++ a.code) :: (BitVec.ofNat 8 (verdictCode a.verdict) ++ flags) :: a.words ∧
    w.good = true ∧ classOf w.header = .answer ∧ headerField w.header = s.mgmt.address ∧
      w.content = [0x00FF, (0 : Byte) ++ flags, numWord (reasonCode n.reason), numWord (sourceKind n.source),
        numWord (sourceIndex n.source), numWord n.count]) ∧
  ([.done, .clamped, .started, .refusedArgument, .refusedGuarded, .refusedTableFull, .refusedBusy, .refusedFixed, .aborted,
    .unknownCommand].map verdictCode = [0, 1, 2, 16, 17, 18, 19, 20, 32, 33]) ∧
  ([.soundChecksum, .sequenceGap, .packetMisplaced, .cadenceMismatch, .lockLost, .formatMismatch, .ringRecentre,
    .referenceLost, .referenceRestored, .clipping, .mixerMismatch, .silence, .managementChecksum, .queueOverrun,
    .controlSilence, .failsafeRefused, .cueLate, .cueRefused].map reasonCode =
    [1, 2, 3, 4, 5, 6, 7, 8, 9, 10, 11, 12, 13, 14, 15, 16, 17, 18]) ∧
  ∀ (f : Feed) (q : Quad) (r : RingNo) (d : Domain) (x : Dest) (w : TrackNo) (c : CueNo),
    let code (src : FaultSource) := (sourceKind src, sourceIndex src)
    code (.inputQuad f q) = (1, 4 * f.val + q.val) ∧ code (.inputFeed f) = (2, f.val) ∧
      code (.takePoint r d) = (3, 16 * r.val + d.val) ∧ code .reference = (4, 0) ∧ code (.destination x) = (5, x.val) ∧
      code (.watchedTrack w) = (6, w.val) ∧ code (.management f) = (7, f.val) ∧ code (.cue c) = (8, c.val)

/-- LINE_RECORD of a feed whose domain does not run: the picture goes out with a blanking of 0x0000, and where the record holds no packet nothing but the FR's line and the line sent changes (R9, R20, R23, R33). The length of the blanking is the model's choice (log entry 13), and that a record with a frame mark counts no further, since FRAME_BOUNDARY stands for its mark, is its reading (log entry 2). -/
def Obligations.StoppedDomainSendsPicture : Prop :=
  ∀ (f : Feed) (r : LineRecord) (e : List Nat) (s : State), s.quiet = true →
    ((s.fr.get f).state = .off → exec (.lineRecord f r e) s = .next (s.setFmt f
      { s.fmt.get f with line := some ⟨r.picture, List.replicate r.blanking.length 0⟩ })) ∧
    ((s.fr.get f).state = .seeking → Config.marker ∉ r.blanking →
      exec (.lineRecord f r e) s = .next ((s.setFr f { s.fr.get f with
        lineCount := if r.frameMark then (s.fr.get f).lineCount else (s.fr.get f).lineCount + 1
        claimed := Table.fill 4 false, place := none, remembered := Table.fill 4 none }).setFmt f
          { s.fmt.get f with sets := [], line := some ⟨r.picture, List.replicate r.blanking.length 0⟩ }))

/-- LINE_RECORD of a feed that is not OFF: the line is opened, its packets and emissions are taken, and its output line is sent, after which the CX takes what it can. The opening counts the line, empties the claims, the pass-through place and the packets remembered for the PASS slots, and leaves the domain no set for the line yet (R3, R23, R28, R35). The packets are taken in the order of the scan, by an FR that has not gone OFF: that the rest of a line whose FR goes OFF within it is not read, on the old control feed either, is the model's choice (log entry 34). The emissions, as many as the distribution gives the line and while the domain runs, in their order, each as soon as the number of packets that the command gives it has been taken (R9, R20, R42, R43, R63; log entry 3). So a sound packet that stands alone in a line of a LOCKED feed, well placed, is remembered and accepted (R26 to R28). The output line of a running domain carries the picture, and a blanking of the packets of sound slots 0 to 3, then that of the extra slot, then 0x0000; each built packet raises its quad's built count by one and is the first of the frame no more; a domain that does not run sends a blanking of 0x0000 (R20, R33 to R35). The notice or the answer that the extra slot carries leaves the AQ, and the Path Checker then reads the slots of the line (R37, R149, R158). For a record without a packet: the domain makes the emissions that the distribution gives the line, the FR stays as it was but for its line, and the other feeds and domains stay as they were (R33, R42, R43). The length of the blanking is the model's choice (log entry 13), and so it is that the extra slot is filled before the Path Checker reads the line (log entry 35), with a notice's flags as they stood (log entry 4). That a record with a frame mark counts no further is the model's reading (log entry 2). -/
def Obligations.RunningDomainSendsLine : Prop :=
  (∀ (f : Feed) (r : LineRecord) (e : List Nat) (s : State), s.awake = true → (s.fr.get f).state ≠ .off →
    let line := if r.frameMark then 1 else (s.fr.get f).lineCount + 1
    let opened := openLine f r.frameMark s
    exec (.lineRecord f r e) s = .next (finish (sendOutput f line r (readLine f line (s.mgmt.controlFeed = f)
      (scanLine r.blanking) 0 (lineEmissions f line e opened) opened)))) ∧
  (∀ (f : Feed) (line : Nat) (control : Bool) (taken : Nat) (es : List Nat) (s : State),
    let emits (l : List Nat) (u : State) := walk l (fun _ v =>
      if domainRunning v (feedDomain f) then emission (feedDomain f) v else v) u
    (∀ mark, openLine f mark s = (s.setFr f { s.fr.get f with
      lineCount := if mark then (s.fr.get f).lineCount else (s.fr.get f).lineCount + 1
      claimed := Table.fill 4 false, place := none, remembered := Table.fill 4 none }).setFmt f
        { s.fmt.get f with sets := [] }) ∧
    readLine f line control [] taken es s = emits es s ∧
    (∀ x rest, readLine f line control (x :: rest) taken es s =
      readLine f line control rest (taken + 1) (es.dropWhile fun n => n ≤ taken)
        (takeScanned f line control x (emits (es.takeWhile fun n => n ≤ taken) s))) ∧
    (∀ x, (s.fr.get f).state = .off → takeScanned f line control x s = s) ∧
    (∀ p, (s.fr.get f).state ≠ .off → takeScanned f line control (.packet p) s = takePacket f line control p s) ∧
    ((s.fr.get f).detected = none → lineEmissions f line es s = []) ∧
    ∀ fm, (s.fr.get f).detected = some fm → lineEmissions f line es s =
      (List.range (setsOnFrameLine fm (s.fmt.get f).phase line)).map fun i => es.getD i 0) ∧
  (∀ (f : Feed) (q : Quad) (p : Packet) (n : Nat) (r : LineRecord) (e : List Nat) (s : State), s.quiet = true →
    (s.fr.get f).state = .locked → r.blanking = p.words ++ List.replicate n 0 →
    p.content.length = headerLength p.header → classOf p.header = .sound → headerField p.header = q.val →
    p.checksum = checksumOf p.header p.content → p.soundHead.setCount = 1 ∨ p.soundHead.setCount = 2 →
    headerLength p.header = 1 + 6 * p.soundHead.setCount.toNat →
    2 < (if r.frameMark then 1 else (s.fr.get f).lineCount + 1) →
    ∃ t, exec (.lineRecord f r e) s = .next t ∧ (t.fr.get f).remembered.get q = some p ∧
      ((t.fr.get f).quads.get q).state = .present ∧ ((t.fr.get f).quads.get q).lastCount = p.soundHead.count ∧
      (t.rings.get (feedRing f q)).written = (if ((s.fr.get f).quads.get q).state = .present then
        (s.rings.get (feedRing f q)).written else 0) + p.soundHead.setCount.toNat ∧
      ∀ g, g ≠ feedRing f q → t.rings.get g = s.rings.get g) ∧
  (∀ (f : Feed) (line : Nat) (r : LineRecord) (s : State),
    let t := sendOutput f line r s
    let slots := soundSlots f line s
    let words := [slots.get 0, slots.get 1, slots.get 2, slots.get 3, extraSlot f s].flatMap fun p => p.elim [] Packet.words
    let builds (q : Quad) := 2 < line ∧ embeds (s.active.modes.get (outQuad f q)) = true ∧ (s.fmt.get f).sets ≠ []
    (domainRunning s (feedDomain f) = true →
      (∃ o : Formatter, t = pathCheckLine f line slots ((drainQueue f s).setFmt f o) ∧ t.fmt.get f = o ∧
        o.sets = (s.fmt.get f).sets) ∧ t.log = (drainQueue f s).log ∧
      (s.pc.state ≠ .checking ∨ s.pc.feed ≠ f → t.mgmt = (drainQueue f s).mgmt ∧ t.pc = s.pc) ∧
      (t.fmt.get f).line = some ⟨r.picture, words ++ List.replicate (r.blanking.length - words.length) 0⟩ ∧
      (t.fmt.get f).phase = (s.fmt.get f).phase ∧ (∀ g, g ≠ f → t.fmt.get g = s.fmt.get g) ∧
      ∀ q : Quad,
        (builds q → (t.fmt.get f).built.get q = (s.fmt.get f).built.get q + 1 ∧ (t.fmt.get f).firstSent.get q = true) ∧
        (¬builds q → (t.fmt.get f).built.get q = (s.fmt.get f).built.get q ∧
          (t.fmt.get f).firstSent.get q = (s.fmt.get f).firstSent.get q)) ∧
    (domainRunning s (feedDomain f) = false → t = s.setFmt f { s.fmt.get f with
      line := some ⟨r.picture, List.replicate r.blanking.length 0⟩ })) ∧
  ∀ (f : Feed) (fm : Format) (r : LineRecord) (e : List Nat) (s : State), s.quiet = true →
    runningState (s.fr.get f).state = true → (s.fr.get f).detected = some fm → Config.marker ∉ r.blanking →
    let line := if r.frameMark then 1 else (s.fr.get f).lineCount + 1
    ∃ t l, exec (.lineRecord f r e) s = .next t ∧ (t.fmt.get f).line = some l ∧ l.picture = r.picture ∧
      r.blanking.length ≤ l.blanking.length ∧
      (t.fmt.get f).sets.length = setsOnFrameLine fm (s.fmt.get f).phase line ∧
      t.fr.get f = { s.fr.get f with
        lineCount := if r.frameMark then (s.fr.get f).lineCount else (s.fr.get f).lineCount + 1
        claimed := Table.fill 4 false, place := none, remembered := Table.fill 4 none } ∧
      (t.fmt.get f).phase = (s.fmt.get f).phase ∧ KeepsSettings s t ∧ t.rings = s.rings ∧ t.watch = s.watch ∧
      t.ru = s.ru ∧ t.lineIn = s.lineIn ∧ t.lineOut = s.lineOut ∧ t.cues = s.cues ∧
      (∀ g, g ≠ f → t.fr.get g = s.fr.get g) ∧
      (∀ x, destDomain x ≠ feedDomain f → t.clips.get x = s.clips.get x) ∧
      (∀ d, d ≠ feedDomain f → t.cm.rounds.get d = s.cm.rounds.get d) ∧
      KeepsPatch (feedDomain f) (fun _ => False) s t

/-! ## Feeds, formats and domains -/

/-- The table of formats: L, C and R of each (R1), T and N (R39), and the nominal period, the reciprocal of the frame rate (R3), in the model's time unit, a thousandth of a 48 kHz sample period (log entry 5). A frame matches a format when its lines are L and its period lies within 200 ppm of nominal, and it matches at most one (R1, R3). The phases of a cycle share out T (R39, R44). The sets of a frame are shared out over its carrying lines: line j has floor((j + 1) S / C) - floor(j S / C) of them, at most two, and at most one where S is less than C; S - C lines have two where S is at least C, and S lines one where it is less; frame line j + 3 is carrying line j, and the quiet lines have none (R42). That a frame line beyond L has none is the model's reading (log entry 14). -/
def Obligations.FormatArithmetic : Prop :=
  ((List.finRange 11).map linesOf = [1125, 1125, 1125, 1125, 1125, 1125, 1125, 1125, 750, 750, 750] ∧
    (List.finRange 11).map carryingOf = [1123, 1123, 1123, 1123, 1123, 1123, 1123, 1123, 748, 748, 748] ∧
    (List.finRange 11).map rateOf = [25, 24, 24, 30, 30, 50, 60, 60, 50, 60, 60] ∧
    (List.finRange 11).map runSets = [1920, 2000, 2002, 1600, 8008, 960, 800, 4004, 960, 800, 4004] ∧
    (List.finRange 11).map cadenceLength = [1, 1, 1, 1, 5, 1, 1, 5, 1, 1, 5] ∧
    (List.finRange 11).map nominalPeriod =
      [1920000, 2000000, 2002000, 1600000, 1601600, 960000, 800000, 800800, 960000, 800000, 800800]) ∧
  (∀ (lines : Nat) (period : Time) (fm : Format), matchFormat lines period = some fm ↔
    lines = linesOf fm ∧ 1000000 * (period - nominalPeriod fm) ≤ 200 * nominalPeriod fm ∧
      1000000 * (nominalPeriod fm - period) ≤ 200 * nominalPeriod fm) ∧
  ((∀ (fm : Format) (k : Nat), k < cadenceLength fm →
    let c := carryingOf fm
    let s := frameSets fm k
    let linesWith (n : Nat) := ((List.range c).filter fun j => lineSets fm k j = n).length
    (∀ j, j * s / c + lineSets fm k j = (j + 1) * s / c) ∧
      ((List.range c).map (lineSets fm k)).sum = s ∧
      (∀ j, j < c → lineSets fm k j ≤ 2 ∧ setsOnFrameLine fm k (j + 3) = lineSets fm k j) ∧
      (c ≤ s → (∀ j, j < c → 1 ≤ lineSets fm k j) ∧ linesWith 2 = s - c ∧ linesWith 1 = 2 * c - s) ∧
      (s < c → (∀ j, j < c → lineSets fm k j ≤ 1) ∧ linesWith 1 = s ∧ linesWith 0 = c - s) ∧
      setsOnFrameLine fm k 1 = 0 ∧ setsOnFrameLine fm k 2 = 0 ∧ ∀ line, linesOf fm < line → setsOnFrameLine fm k line = 0) ∧
  (∀ fm : Format, ((List.range (cadenceLength fm)).map (frameSets fm)).sum = runSets fm) ∧
  (List.range 5).map (frameSets 4) = [1601, 1602, 1601, 1602, 1602] ∧
  (List.range 5).map (frameSets 7) = [800, 801, 801, 801, 801] ∧
  (List.range 5).map (frameSets 10) = [800, 801, 801, 801, 801] ∧
  (List.finRange 11).map (fun fm => frameSets fm 0) = [1920, 2000, 2002, 1600, 1601, 960, 800, 800, 960, 800, 800])

/-- FRAME_BOUNDARY in OFF does nothing; the first one opens a whole frame; in SEEKING each further one moves the candidate, or identifies a format seen twice and starts the domain, and with settle frames 0 enters LOCKED at once, with the rings reset and the quads' tracking cleared; a frame it closes counts for the cues DUE on the feed. At the start the domain's RUNNING records go to FILLING with their takes held, and every other record stays as it is, but for those on the rings that an entry into LOCKED resets (R3, R5, R6, R15, R23, R40, R45, R52, R68, R111, R139). That FRAME_BOUNDARY counts the frame's first line, whose LINE_RECORD then counts no further, is the model's reading (log entry 2). -/
def Obligations.SeekingIdentifiesFormat : Prop :=
  ∀ (f : Feed) (period : Time) (order : List Part) (s : State), s.quiet = true →
    let r := s.fr.get f
    let m := matchFormat r.lineCount period
    let after := exec (.frameBoundary f period order) s
    (∀ u : State, countDue f u = { u with cues := u.cues.map fun q =>
      if q.state = .due ∧ q.feed = f then { q with framesWaited := min 65535 (q.framesWaited + 1) } else q }) ∧
    (r.state = .off → after = .next s) ∧
    (r.state ≠ .off → r.frameOpen = false → after = .next (s.setFr f { r with lineCount := 1, frameOpen := true })) ∧
    (r.state = .seeking → r.frameOpen = true →
      (m = none → after = .next (countDue f (s.setFr f { r with lineCount := 1, candidate := none }))) ∧
      (∀ fm, m = some fm → r.candidate ≠ some fm →
        after = .next (countDue f (s.setFr f { r with lineCount := 1, candidate := some fm }))) ∧
      (∀ fm, m = some fm → r.candidate = some fm → ∃ t, after = .next t ∧ (t.fr.get f).detected = some fm ∧
        (t.fr.get f).candidate = none ∧ (t.fmt.get f).phase = 0 ∧ (t.fmt.get f).built = Table.fill 4 0 ∧
        (r.expected = none ∨ r.expected = some fm → (t.fr.get f).settleRemaining = r.settleFrames ∧ t.log = s.log ∧
          ((t.fr.get f).state = if r.settleFrames = 0 then .locked else .settling) ∧
          (r.settleFrames = 0 → EnteredLocked f s t) ∧ (r.settleFrames ≠ 0 → t.rings = s.rings)) ∧
        (r.expected ≠ none → r.expected ≠ some fm → (t.fr.get f).state = .wrongFormat ∧
          t.log = (report .formatMismatch (.inputFeed f) s).log) ∧
        t.cues = (countDue f s).cues ∧
        let locks := (r.expected = none ∨ r.expected = some fm) ∧ r.settleFrames = 0
        ∀ i, let tp := s.tpt.get i
          t.tpt.get i = if (tp.domain = feedDomain f ∧ tp.state = .running) ∨
              (locks ∧ tp.ring.val / 4 = f.val ∧ tp.state ≠ .free) then
            { tp with state := .filling } else tp))

/-- A feed domain runs while its FR is SETTLING, LOCKED or WRONG FORMAT, and domain 8 at all times (R15). The parts of a boundary of a feed that closes a matching frame, each taken once, in the order the operand names or as they stand: take points, switch, clip marks, Path Checker and the count for DUE cues, in LOCKED the cadence, presence and absence of each quad and track, in SETTLING the settle count, whose end is the entry into LOCKED (R6, R10, R47, R64, R102, R111, R131, R136, R148; log entry 3). That a part is taken whole, with no other part's fault between two of its own, is the model's choice (log entry 37), and so it is that the CX takes the next queued commands after all the parts, where the boundary completes a command in flight (log entry 32); that the boundary counts line 1 is its reading (log entry 2). FRAME_BOUNDARY that closes a frame matching the detected format: the domain runs on with its next phase and cleared clip marks, a commit in flight switches it, SETTLING counts down into LOCKED, where the rings are reset and the quads' tracking is cleared, LOCKED and WRONG FORMAT stay; a path check that waits for the domain begins, and one that runs completes and is answered (R6, R8, R15, R40, R102, R131, R148, R151). -/
def Obligations.MatchingFrameKeepsDomain : Prop :=
  (∀ order parts : List Part, (schedule order parts).Perm parts ∧ (order.Perm parts → schedule order parts = order) ∧
    schedule [] parts = parts) ∧
  (∀ s : State, domainRunning s domain8 = true ∧ ∀ f, domainRunning s (feedDomain f) = runningState (s.fr.get f).state ∧
    (runningState (s.fr.get f).state = true ↔ (s.fr.get f).state = .settling ∨ (s.fr.get f).state = .locked ∨
      (s.fr.get f).state = .wrongFormat)) ∧
  (∀ (f : Feed) (fm : Format) (s : State),
    let take (p : Part) := boundaryPart f fm p s
    (openFrame f fm s = (s.setFmt f { s.fmt.get f with
      phase := ((s.fmt.get f).phase + 1) % cadenceLength fm, firstSent := Table.fill 4 false, sets := [] }).setRound
        (feedDomain f) { s.cm.rounds.get (feedDomain f) with fresh := true }) ∧
    take .takePoints = judgeTakePoints (feedDomain f) s ∧ take .switch = switchAt (feedDomain f) true s ∧
    take .clips = handOverClips (feedDomain f) s ∧ take .pathCheck = pathCheckBoundary f s ∧
    take .dueCount = { s with cues := s.cues.map fun q =>
      if q.state = .due ∧ q.feed = f then { q with framesWaited := min 65535 (q.framesWaited + 1) } else q } ∧
    (∀ q, take (.cadence q) = judgeCadence f fm q s ∧ take (.absence q) = closeQuadFrame f q s) ∧
    (∀ t, take (.presence t) = judgeFeedTrack f t s) ∧
    let r := s.fr.get f
    let counted := s.setFr f { r with settleRemaining := r.settleRemaining - 1 }
    (1 < r.settleRemaining → take .settle = counted) ∧
    (r.settleRemaining ≤ 1 → EnteredLocked f s (take .settle) ∧ (take .settle).log = s.log ∧ (take .settle).ce = s.ce ∧
      ∃ quads, (take .settle).fr.get f = { r with state := .locked, settleRemaining := 0, quads := quads })) ∧
  (∀ (f : Feed) (fm : Format) (period : Time) (order : List Part) (s : State), s.awake = true →
    let r := s.fr.get f
    runningState r.state = true → r.frameOpen = true → r.detected = some fm → matchFormat r.lineCount period = some fm →
    let parts : List Part := [.takePoints, .switch, .clips, .pathCheck, .dueCount] ++ (match r.state with
      | .locked => (List.finRange 4).map .cadence ++ (List.finRange 16).map .presence ++ (List.finRange 4).map .absence
      | .settling => [.settle]
      | .off | .seeking | .wrongFormat => [])
    exec (.frameBoundary f period order) s = .next (finish (walk (schedule order parts) (boundaryPart f fm)
      (openFrame f fm (s.setFr f { r with lineCount := 1, frameOpen := true }))))) ∧
  ∀ (f : Feed) (fm : Format) (period : Time) (order : List Part) (s : State), s.quiet = true →
    let r := s.fr.get f
    runningState r.state = true → r.frameOpen = true → r.detected = some fm → matchFormat r.lineCount period = some fm →
    ∃ t, exec (.frameBoundary f period order) s = .next t ∧ (t.fr.get f).lineCount = 1 ∧
      (t.fr.get f).detected = some fm ∧ (t.fmt.get f).phase = ((s.fmt.get f).phase + 1) % cadenceLength fm ∧
      (∀ q, (t.fmt.get f).firstSent.get q = false) ∧
      (∀ k : Fin 16, t.clips.get (domainDest (feedDomain f) k) = false) ∧ SwitchesCommit (feedDomain f) s t ∧
      (r.state = .locked → (t.fr.get f).state = .locked) ∧
      (r.state = .wrongFormat → (t.fr.get f).state = .wrongFormat) ∧
      (r.state = .settling → (t.fr.get f).settleRemaining = r.settleRemaining - 1 ∧
        ((t.fr.get f).state = if r.settleRemaining ≤ 1 then .locked else .settling) ∧
        (r.settleRemaining ≤ 1 → EnteredLocked f s t)) ∧
      (r.state ≠ .settling ∨ 1 < r.settleRemaining → t.rings = s.rings) ∧
      (s.pc.state = .idle ∨ s.pc.feed ≠ f → t.pc = s.pc) ∧
      (s.pc.state = .waiting → s.pc.feed = f → let k := ((s.fmt.get f).phase + 1) % cadenceLength fm
        t.pc = ⟨.checking, f, k, frameSets fm k, false, Table.fill 4 Tally.clear, Table.fill 16 false⟩ ∧
          t.mgmt.queue = s.mgmt.queue ∧ t.mgmt.cx = s.mgmt.cx ∧ t.mgmt.answers = s.mgmt.answers) ∧
      (s.pc.state = .checking → s.pc.feed = f → let u := pathCheckBoundary f s
        t.pc = u.pc ∧ t.mgmt.queue = u.mgmt.queue ∧ t.mgmt.cx = u.mgmt.cx ∧ t.mgmt.answers = u.mgmt.answers)

/-- FRAME_BOUNDARY that closes a mismatching frame, and LINE_RECORD_GAP, send a running FR to SEEKING with LOCK LOST and stop the domain, which switches it in a commit in flight and aborts a path check of it, with its answer; the mismatching boundary also counts a frame for the cues DUE on the feed; a gap in OFF or SEEKING does nothing (R4, R7, R15, R102, R111, R152). The parts of the loss, each taken once, in the order the operand names or as they stand: the effects of leaving LOCKED where the FR was LOCKED, the stop, and at a boundary the count for the DUE cues (R7, R15, R111; log entry 3). That a part is taken whole, and that the CX takes the next queued commands after all the parts, is the model's choice (log entries 37 and 32). That the boundary is no frame boundary of the domain, that it counts line 1, and that a gap leaves the frame open with the lines it has, is the model's reading (log entries 23, 2 and 25). -/
def Obligations.LockIsLost : Prop :=
  (∀ (f : Feed) (fm : Format) (s : State),
    let u := boundaryPart f fm .leaveLocked s
    boundaryPart f fm .stop s = stopDomain f s ∧
    (∀ i, u.tpt.get i = if (s.tpt.get i).ring.val / 4 = f.val ∧ (s.tpt.get i).state ≠ .free then
      { s.tpt.get i with state := .starved } else s.tpt.get i) ∧
    (∀ w, u.watch.tracks.get w = if w.val / 16 = f.val then ⟨.unknown, 0, 0⟩ else s.watch.tracks.get w) ∧
    (∀ q, (u.fr.get f).quads.get q =
      { (s.fr.get f).quads.get q with state := .unknown, empty := 0, carried := false }) ∧
    u = ((s.setTpt u.tpt).setTracks u.watch.tracks).setFr f { s.fr.get f with quads := (u.fr.get f).quads }) ∧
  (∀ (f : Feed) (fm : Format) (period : Time) (order : List Part) (s : State), s.awake = true →
    let r := s.fr.get f
    let parts : List Part := if r.state = .locked then [.leaveLocked, .stop] else [.stop]
    let lost (r' : Receiver) := report .lockLost (.inputFeed f) (s.setFr f r')
    runningState r.state = true → r.detected = some fm →
    (r.frameOpen = true → matchFormat r.lineCount period ≠ some fm → exec (.frameBoundary f period order) s = .next (finish
      (walk (schedule order (parts ++ [.dueCount])) (boundaryPart f fm) (lost { r with
        lineCount := 1, state := .seeking, detected := none, candidate := matchFormat r.lineCount period })))) ∧
    exec (.lineRecordGap f order) s = .next (finish (walk (schedule order parts) (boundaryPart f fm)
      (lost { r with state := .seeking, detected := none, candidate := none })))) ∧
  ∀ (f : Feed) (fm : Format) (period : Time) (order : List Part) (s : State), s.quiet = true →
    let r := s.fr.get f
    (runningState r.state = true → r.detected = some fm →
      (r.frameOpen = true → matchFormat r.lineCount period ≠ some fm →
        ∃ t, exec (.frameBoundary f period order) s = .next t ∧ LostLock f (matchFormat r.lineCount period) s t ∧
          (s.ce.inFlight = none → t.cues = (countDue f s).cues)) ∧
      ∃ t, exec (.lineRecordGap f order) s = .next t ∧ LostLock f none s t ∧
        (s.ce.inFlight = none → t.cues = s.cues)) ∧
    (runningState r.state = false → exec (.lineRecordGap f order) s = .next s)

/-- A quad at a boundary in LOCKED: an accepted packet in the frame keeps its count, a frame without one raises it to at most 2, and a quad whose count reaches 2 goes ABSENT, starving its ring's take points and resetting its tracks; at a further empty frame an ABSENT quad stays ABSENT, and these effects are not repeated (R10, R53, R139). -/
def Obligations.EmptyFramesMakeQuadAbsent : Prop :=
  ∀ (f : Feed) (q : Quad) (s : State),
    let k := (s.fr.get f).quads.get q
    let t := closeQuadFrame f q s
    let k' := (t.fr.get f).quads.get q
    (k.carried = true → t = s.setFr f { s.fr.get f with quads := (s.fr.get f).quads.set q { k with carried := false } }) ∧
    (k.carried = false → k'.empty = min 2 (k.empty + 1) ∧ k'.carried = false ∧
      (1 ≤ k.empty → k'.state = .absent) ∧
      (k.empty = 0 ∨ k.state = .absent → t = s.setFr f { s.fr.get f with
        quads := (s.fr.get f).quads.set q { k with empty := min 2 (k.empty + 1), carried := false } }) ∧
      (1 ≤ k.empty → k.state ≠ .absent → k'.basePending = true ∧ k'.tracker = ⟨false, none, none, 0, false⟩ ∧
        (∀ w, t.watch.tracks.get w = if trackRing w = feedRing f q then ⟨.unknown, 0, 0⟩ else s.watch.tracks.get w) ∧
        ∀ i, t.tpt.get i = if (s.tpt.get i).ring = feedRing f q ∧ (s.tpt.get i).state ≠ .free then
          { s.tpt.get i with state := .starved } else s.tpt.get i)) ∧
    t.rings = s.rings ∧ t.log = s.log ∧ ∀ q', q' ≠ q → (t.fr.get f).quads.get q' = (s.fr.get f).quads.get q'

/-- The cadence tracker is handed an accepted packet (R46). At a boundary what is mismatched records CADENCE MISMATCH and begins afresh, what agrees goes on to the next phase (R47). That a tracker put in REBASE there holds no frame phase, total or conflict is the model's choice (log entry 38), and so it is that a frame total rises without bound (log entry 31). -/
def Obligations.CadenceTrackerFollowsPackets : Prop :=
  (∀ (t : Tracker) (h : SoundHead),
    (t.tracking = false → h.first = false → t.tallied h = t) ∧
    (t.tracking = false → h.first = true →
      t.tallied h = ⟨true, none, some h.phase.toNat, h.setCount.toNat, false⟩) ∧
    (t.tracking = true → t.framePhase = none →
      t.tallied h = { t with framePhase := some h.phase.toNat, total := t.total + h.setCount.toNat }) ∧
    ∀ k, t.tracking = true → t.framePhase = some k →
      t.tallied h = { t with
        total := t.total + h.setCount.toNat, conflict := t.conflict || decide (h.phase.toNat ≠ k) }) ∧
  (∀ (f : Feed) (fm : Format) (q : Quad) (s : State),
    let tr := ((s.fr.get f).quads.get q).tracker
    let t := judgeCadence f fm q s
    let tr' := ((t.fr.get f).quads.get q).tracker
    (tr.tracking = false → tr' = tr ∧ t.log = s.log) ∧
    (tr.tracking = true → tr.framePhase = none → tr' = ⟨false, none, none, 0, false⟩ ∧ t.log = s.log) ∧
    ∀ k, tr.tracking = true → tr.framePhase = some k →
      let mismatched := cadenceLength fm ≤ k ∨ tr.total ≠ frameSets fm k ∨ (∃ e, tr.expected = some e ∧ e ≠ k) ∨
        tr.conflict = true
      (mismatched → tr' = ⟨false, none, none, 0, false⟩ ∧ t.log = (report .cadenceMismatch (.inputQuad f q) s).log) ∧
      (¬mismatched → tr' = ⟨true, some ((k + 1) % cadenceLength fm), none, 0, false⟩ ∧ t.log = s.log))

/-- SET FEED stores its settings and moves the FR as the tables of R17 say, in every state, and answers with the words of READ FEED. Leaving LOCKED by it, to OFF or to WRONG FORMAT, starves the feed's take points and resets its watched tracks, and disabling a running feed stops its domain, which ends its ramps, clears its clip marks and switches it in a commit in flight; a SET FEED that does neither leaves all these (R7, R15, R17, R53, R102, R139). A word out of range, or a disabling of the control feed, is refused (R17). -/
def Obligations.SetFeedMovesReceiver : Prop :=
  ∀ (tag : Byte) (f : Feed) (enable : Bool) (expected : Option Format) (settle : Fin 16) (s : State), s.ready = true →
    let r := s.fr.get f
    let after := exec (.setFeed tag [numWord f.val, flagWord enable, formatWord expected, numWord settle.val]) s
    let refused := Host.Outcome.next (ρ := Refusal) (φ := Fault) ((restartTimer s).answering tag 1 .refusedArgument [])
    (enable = false → f = s.mgmt.controlFeed → after = refused) ∧
    (∀ a b c d : Word, 8 ≤ a.toNat ∨ 2 ≤ b.toNat ∨ (11 ≤ c.toNat ∧ c ≠ 255) ∨ 16 ≤ d.toNat →
      exec (.setFeed tag [a, b, c, d]) s = refused) ∧
    (enable = true ∨ f ≠ s.mgmt.controlFeed → ∃ t : State, after = .next (t.answering tag 1 .done (feedWords t f)) ∧
      let r' := t.fr.get f
      let agrees := expected = none ∨ expected = r.detected
      r'.enabled = enable ∧ r'.expected = expected ∧ r'.settleFrames = settle.val ∧ t.rings = s.rings ∧
      (enable = false → r.state = .locked → LeftLocked f s t) ∧
      (enable = false → runningState r.state = true → DomainStopped f s t) ∧
      (enable = true ∨ runningState r.state = false → t.ramps = s.ramps ∧ t.clips = s.clips ∧ t.cm = s.cm ∧ t.ce = s.ce ∧
        t.active = s.active ∧ t.fmt = s.fmt ∧ t.cues = s.cues) ∧
      (enable = true → r.state = .locked → ¬agrees → LeftLocked f s t ∧
        ∀ i, t.tpt.get i = if (s.tpt.get i).ring.val / 4 = f.val ∧ (s.tpt.get i).state ≠ .free then
          { s.tpt.get i with state := .starved } else s.tpt.get i) ∧
      (enable = true → r.state ≠ .locked ∨ agrees → t.tpt = s.tpt ∧ t.watch = s.watch) ∧
      (∀ g, g ≠ f → t.fr.get g = s.fr.get g ∧ (enable = true ∨ s.ce.inFlight = none → t.fmt.get g = s.fmt.get g)) ∧
      (enable = false → r'.state = .off ∧ (r.state ≠ .off → r'.detected = none ∧ r'.candidate = none) ∧
        (s.ce.inFlight = none → t.log = s.log) ∧ (runningState r.state = true → (t.fmt.get f).phase = 0)) ∧
      (enable = true → (t.fmt.get f) = s.fmt.get f ∧
        (r.state = .off → r'.state = .seeking ∧ r'.candidate = none ∧ r'.frameOpen = false) ∧
        (r.state = .seeking → r'.state = .seeking) ∧
        (r.state = .settling → agrees → r'.state = .settling ∧ r'.settleRemaining = settle.val) ∧
        (r.state = .locked → agrees → r'.state = .locked ∧ r'.quads = r.quads) ∧
        (r.state = .locked → ¬agrees → ∀ q, (r'.quads.get q).state = .unknown ∧ (r'.quads.get q).empty = 0) ∧
        (r.state = .settling ∨ r.state = .locked → ¬agrees → r'.state = .wrongFormat ∧
          t.log = (report .formatMismatch (.inputFeed f) s).log) ∧
        (r.state = .wrongFormat → agrees → r'.state = .settling ∧ r'.settleRemaining = settle.val) ∧
        (r.state = .wrongFormat → ¬agrees → r'.state = .wrongFormat) ∧
        (r.state = .off ∨ r.state = .seeking ∨ r.state = .wrongFormat ∨ agrees → t.log = s.log)))

/-- READ FEED and SET REFERENCE: their forms, their effects and their result words (R16, R18, R19). The codes of R16: of the states of an FR, a quad and the RU, of a format, 255 where there is none, and of a flag. -/
def Obligations.ReadFeedAndSetReference : Prop :=
  ([.off, .seeking, .settling, .locked, .wrongFormat].map frStateCode = [0, 1, 2, 3, 4] ∧
    [.unknown, .present, .absent].map quadStateCode = [0, 1, 2] ∧ [.free, .locked].map ruStateCode = [0, 1] ∧
    [false, true].map flagWord = [0, 1] ∧ formatWord none = 255 ∧ ∀ fm, formatWord (some fm) = numWord fm.val) ∧
  ∀ (tag : Byte) (s : State), s.ready = true →
    let t := restartTimer s
    (∀ f : Feed, let r := s.fr.get f
      exec (.readFeed tag [numWord f.val]) s = .next (t.answering tag 2 .done
        [flagWord r.enabled, frStateCode r.state, formatWord r.expected, numWord r.settleFrames,
          numWord r.settleRemaining, formatWord r.detected, quadStateCode (r.quads.get 0).state,
          quadStateCode (r.quads.get 1).state, quadStateCode (r.quads.get 2).state, quadStateCode (r.quads.get 3).state,
          numWord (s.fmt.get f).phase])) ∧
    (∀ w : Word, 8 ≤ w.toNat → exec (.readFeed tag [w]) s = .next (t.answering tag 2 .refusedArgument [])) ∧
    (∀ args : List Word, args.length ≤ 29 → args.length ≠ 1 → exec (.readFeed tag args) s =
      .next (t.answering tag 2 .refusedArgument [])) ∧
    (∀ args : List Word, args.length ≤ 29 → args.length ≠ 1 → exec (.setReference tag args) s =
      .next (t.answering tag 3 .refusedArgument [])) ∧
    (∀ fm : Format, let p := if fm = s.ru.format then none else some fm
      exec (.setReference tag [numWord fm.val]) s = .next ((t.setRu { s.ru with pendingFormat := p }).answering tag 3 .done
        [ruStateCode s.ru.state, numWord s.ru.format.val, formatWord p, s.ru.frameCount.extractLsb' 16 16,
          s.ru.frameCount.extractLsb' 0 16])) ∧
    ∀ w : Word, 11 ≤ w.toNat → exec (.setReference tag [w]) s = .next (t.answering tag 3 .refusedArgument [])

/-! ## Rings, take points and emissions -/

/-- What a ring returns: the set written when the count stood at p, for the newest 8192, and no set elsewhere (R49, R50). Ring 4s + q is that of feed quad q, ring 32 + n that of line quad n (section 0.6). -/
def Obligations.RingReturnsWrittenSets : Prop :=
  ((∀ f q, (feedRing f q).val = 4 * f.val + q.val) ∧ ∀ n, (lineRing n).val = 32 + n.val) ∧
  ∀ (g : Ring) (x : SampleSet), g.wf = true →
    (g.push x).wf = true ∧ (g.push x).written = g.written + 1 ∧ (g.push x).read g.written = some x ∧
      (∀ p, p < g.written → g.written + 1 ≤ p + 8192 → (g.push x).read p = g.read p) ∧
      (∀ p, p + 8192 ≤ g.written → (g.push x).read p = none) ∧ ∀ p, g.written < p → (g.push x).read p = none

/-- FLUSH resets the rings that its granularity names, each by the ring reset below, and reports the granularity applied, the lowest ring and their number; any other code or word is refused (R70, R71). A ring's reset: its count becomes 0, its take points that are not FREE go to FILLING and keep everything else, its four watched tracks become UNKNOWN, and nothing else changes (R52, R139). -/
def Obligations.FlushResetsRings : Prop :=
  (∀ (tag : Byte) (s : State), s.ready = true →
    let flushed (rings : List RingNo) (words : List Word) := Host.Outcome.next (ρ := Refusal) (φ := Fault)
      ((walk rings resetRing (restartTimer s)).answering tag 8 .done words)
    let refused := Host.Outcome.next (ρ := Refusal) (φ := Fault) ((restartTimer s).answering tag 8 .refusedArgument [])
    exec (.flush tag [0]) s = flushed (List.finRange 36) [0, 0, 36] ∧
    (∀ f : Feed, exec (.flush tag [1, numWord f.val]) s =
      flushed [feedRing f 0, feedRing f 1, feedRing f 2, feedRing f 3] [1, numWord (4 * f.val), 4]) ∧
    (∀ r : RingNo, exec (.flush tag [2, numWord r.val]) s = flushed [r] [2, numWord r.val, 1]) ∧
    (∀ (f : Feed) (k : Fin 16), exec (.flush tag [3, numWord f.val, numWord k.val]) s =
      flushed [feedRing f ⟨k.val / 4, by omega⟩] [2, numWord (4 * f.val + k.val / 4), 1]) ∧
    (∀ n : LineQuad, exec (.flush tag [4, numWord n.val]) s = flushed [lineRing n] [2, numWord (32 + n.val), 1]) ∧
    (∀ g : Word, g ≠ 0 → exec (.flush tag [g]) s = refused) ∧
    (∀ g a : Word, (g = 1 ∧ 8 ≤ a.toNat) ∨ (g = 2 ∧ 36 ≤ a.toNat) ∨ (g = 4 ∧ 4 ≤ a.toNat) ∨ (g ≠ 1 ∧ g ≠ 2 ∧ g ≠ 4) →
      exec (.flush tag [g, a]) s = refused) ∧
    (∀ g a b : Word, g ≠ 3 ∨ 8 ≤ a.toNat ∨ 16 ≤ b.toNat → exec (.flush tag [g, a, b]) s = refused) ∧
    ∀ args : List Word, args.length ≤ 29 → args.length = 0 ∨ 3 < args.length → exec (.flush tag args) s = refused) ∧
  (∀ (r : RingNo) (s : State),
    let t := resetRing r s
    t = { s with rings := t.rings, tpt := t.tpt, watch := { s.watch with tracks := t.watch.tracks } } ∧
      t.rings.get r = ⟨0, []⟩ ∧ (∀ r', r' ≠ r → t.rings.get r' = s.rings.get r') ∧
      (∀ i, t.tpt.get i = if (s.tpt.get i).ring = r ∧ (s.tpt.get i).state ≠ .free then
          { s.tpt.get i with state := .filling } else s.tpt.get i) ∧
      ∀ w, t.watch.tracks.get w = if trackRing w = r then ⟨.unknown, 0, 0⟩ else s.watch.tracks.get w)

/-- A frame boundary of a domain judges its records: RUNNING ones slip by one set outside the window 64 to 128, FILLING ones on a fed ring of 96 sets enter RUNNING at written - 96, and no other record and no fault comes of it (R64, R65). A feed ring is fed while its FR is LOCKED and its quad is not ABSENT, a line ring at all times (R51). -/
def Obligations.TakePointsJudgedAtBoundary : Prop :=
  (∀ s : State, (∀ f q, ringFed s (feedRing f q) = true ↔
      (s.fr.get f).state = .locked ∧ ((s.fr.get f).quads.get q).state ≠ .absent) ∧
    ∀ n, ringFed s (lineRing n) = true) ∧
  ∀ (d : Domain) (i : RecordNo) (s : State),
    let tp := s.tpt.get i
    let w := (s.rings.get tp.ring).written
    let tp' := (judgeTakePoints d s).tpt.get i
    (judgeTakePoints d s).log = s.log ∧
    (tp.domain ≠ d ∨ tp.state = .free ∨ tp.state = .starved → tp' = tp) ∧
    (tp.domain = d → tp.state = .running →
      (128 < w - tp.take → tp' = { tp with take := tp.take + 1, slipsAhead := tp.slipsAhead + 1 }) ∧
      (w - tp.take < 64 → tp' = { tp with take := tp.take - 1, slipsBack := tp.slipsBack + 1 }) ∧
      (64 ≤ w - tp.take → w - tp.take ≤ 128 → tp' = tp)) ∧
    (tp.domain = d → tp.state = .filling →
      (ringFed s tp.ring = true → 96 ≤ w → tp' = { tp with take := w - 96, state := .running }) ∧
      (ringFed s tp.ring = false ∨ w < 96 → tp' = tp))

/-- An emission moves the takes of its domain: a RUNNING record advances by one, after a re-centre when its occupancy was 0; FILLING and STARVED records and those of other domains hold theirs (R58 to R61). It hands the value of each computed destination, read after those re-centres, to the OF as one more set of the line, or to the LP (R121, R133); it sets the clip mark of a destination whose value it saturates (R130), and advances the ramps of the domain, ending those that reach their length: the records lose the references of the old entries of the ramps that end, and one left with none and not reserved becomes FREE (R56, R104, R127). -/
def Obligations.EmissionMovesTakes : Prop :=
  (∀ (d : Domain) (s : State),
    let u := underruns d s
    let t := emission d s
    (u.rings = s.rings ∧ u.active = s.active ∧ u.ramps = s.ramps ∧ ∀ i, let tp := s.tpt.get i
      u.tpt.get i = if tp.state = .running ∧ tp.domain = d ∧ (s.rings.get tp.ring).written ≤ tp.take then
        { tp with take := (s.rings.get tp.ring).written - 96, recentres := tp.recentres + 1 } else tp) ∧
    (∀ f, d = feedDomain f → t.lineOut = s.lineOut ∧ (∀ g, g ≠ f → t.fmt.get g = s.fmt.get g) ∧
      t.fmt.get f = { s.fmt.get f with sets := (s.fmt.get f).sets ++ [Table.tab 16 fun k =>
        if carriedIn s.active (domainDest d k) then BitVec.ofInt 24 (mixValue u (domainDest d k)) else 0] }) ∧
    (d = domain8 → t.fmt = s.fmt ∧
      ∀ l : Fin 16, t.lineOut.get l = BitVec.ofInt 24 (mixValue u (domainDest domain8 l))) ∧
    (∀ x, t.clips.get x = true ↔ s.clips.get x = true ∨ (destDomain x = d ∧ carriedIn s.active x = true ∧
      (preSaturation u x < -8388608 ∨ 8388607 < preSaturation u x))) ∧
    (∀ x, destDomain x ≠ d ∨ s.ramps.get x = none → t.ramps.get x = s.ramps.get x) ∧
    ∀ x r, destDomain x = d → s.ramps.get x = some r →
      t.ramps.get x = if r.length ≤ r.progress + 1 then none else some { r with progress := r.progress + 1 }) ∧
  ∀ (d : Domain) (i : RecordNo) (s : State),
    let tp := s.tpt.get i
    let tp' := (emission d s).tpt.get i
    let w := (s.rings.get tp.ring).written
    let released := ((List.finRange 144).filter fun x => destDomain x = d).flatMap fun x => (s.ramps.get x).elim [] fun r =>
      if r.length ≤ r.progress + 1 then entryPairs r.old d else []
    let left := tp.references - released.count (tp.ring, d)
    (tp.domain ≠ d ∨ tp.state = .free → tp' = tp) ∧
    (tp.domain = d → tp.state ≠ .free → tp'.references = left ∧ tp'.reserved = tp.reserved ∧
      tp'.state = if left = 0 ∧ tp.reserved = false then .free else tp.state) ∧
    (tp.state ≠ .running → tp'.take = tp.take ∧ tp'.recentres = tp.recentres) ∧
    (tp.domain = d → tp.state = .running →
      (tp.take < w → tp'.take = tp.take + 1 ∧ tp'.recentres = tp.recentres) ∧
      (w ≤ tp.take → tp'.take = w - 96 + 1 ∧ tp'.recentres = tp.recentres + 1 ∧
        (emission d s).log.tells .ringRecentre (.takePoint tp.ring d) = true)) ∧
    (emission d s).rings = s.rings

/-- A write event overruns the RUNNING records it leaves 2048 or more sets behind: they re-centre 96 sets behind the written count (R61, R62). -/
def Obligations.WriteOverrunsRecords : Prop :=
  ∀ (r : RingNo) (sets : List SampleSet) (i : RecordNo) (s : State),
    let tp := s.tpt.get i
    let w := (s.rings.get r).written + sets.length
    let t := writeEvent r sets s
    (t.rings.get r).written = w ∧
    (tp.ring = r → tp.state = .running → 2048 ≤ w - tp.take →
      t.tpt.get i = { tp with take := w - 96, recentres := tp.recentres + 1 } ∧
        t.log.tells .ringRecentre (.takePoint r tp.domain) = true) ∧
    (tp.ring ≠ r ∨ tp.state ≠ .running ∨ w - tp.take < 2048 → t.tpt.get i = tp)

/-- READ TAKE POINTS reports up to eight records in one of three views, with the level of each, and refuses any other form (R72, R73); the codes of the states of a record are those of R72. -/
def Obligations.ReadTakePointsReportsRecords : Prop :=
  ([.free, .filling, .running, .starved].map tpStateCode = [0, 1, 2, 3]) ∧
  ∀ (tag : Byte) (s : State), s.ready = true →
    (∀ args : List Word, args.length ≤ 29 → args.length ≠ 3 →
      exec (.readTakePoints tag args) s = .next ((restartTimer s).answering tag 9 .refusedArgument [])) ∧
    ∀ a b c : Word,
    let records := (s.tpt.cells.drop a.toNat).take b.toNat
    let after := exec (.readTakePoints tag [a, b, c]) s
    let answer (words : List Word) := Host.Outcome.next (ρ := Refusal) (φ := Fault)
      ((restartTimer s).answering tag 9 .done ([a, b, c] ++ words))
    let fits := a.toNat < 64 ∧ 1 ≤ b.toNat ∧ b.toNat ≤ 8 ∧ a.toNat + b.toNat ≤ 64
    (fits → c = 0 → after = answer (records.flatMap fun tp =>
      [tpStateCode tp.state, numWord tp.ring.val, numWord tp.domain.val])) ∧
    (fits → c = 1 → after = answer (records.flatMap fun tp =>
      [numWord tp.references, flagWord tp.reserved, numWord (match tp.state with
        | .running => (s.rings.get tp.ring).written - tp.take
        | .filling => min 65535 (s.rings.get tp.ring).written
        | .starved | .free => 0)])) ∧
    (fits → c = 2 → after = answer (records.flatMap fun tp => [tp.slipsAhead, tp.slipsBack, tp.recentres])) ∧
    (¬fits ∨ 3 ≤ c.toNat → after = .next ((restartTimer s).answering tag 9 .refusedArgument []))

/-! ## The Reference Unit and domain 8 -/

/-- SET_TICK: a tick presents the line inputs, writes the four line rings and emits the line outputs; in FREE the tick that completes S(k) ends the frame, which switches domain 8 in a commit in flight, with a pending format coming into force; in LOCKED none follows S(k) (R11, R12, R41, R49, R102, R133). What the tick brings and what the frame end brings are taken as the parts of an instant of domain 8 (PulsesAndTimeOutsEndFrames), in the orders the operands give (R64, R66, R69, R131, R135, R137, R168; log entry 3); that where the orders name nothing the writes are taken before the emission is the model's standing order (log entry 3). That the CX takes the next queued commands after all the parts is the model's choice (log entry 32). That a tick after S(k) in LOCKED only passes time is the model's choice (log entry 10), and so it is that in FREE a frame already complete ends before the tick (log entry 15). -/
def Obligations.SetTickWritesLineRings : Prop :=
  (∀ (e : Time) (lines : LineSet) (order frameOrder : List Part) (s : State), s.awake = true →
    let timed := s.setRu { s.ru with sincePulse := s.ru.sincePulse + e, sinceFrame := s.ru.sinceFrame + e }
    let sets := frameSets s.ru.format s.ru.phase
    let after := exec (.setTick e lines order frameOrder) s
    (s.ru.state = .locked → sets ≤ s.ru.ticks → after = .next (finish timed)) ∧
    (s.ru.ticks < sets → s.ru.state = .locked ∨ s.ru.ticks + 1 < sets →
      after = .next (finish (runningTicks [lines] order frameOrder timed))) ∧
    (s.ru.state = .free → s.ru.ticks + 1 = sets →
      after = .next (finish (endingTicks false [lines] order frameOrder timed))) ∧
    (s.ru.state = .free → sets ≤ s.ru.ticks →
      after = .next (finish (runningTicks [lines] order frameOrder (endingTicks false [] [] frameOrder timed))))) ∧
  ∀ (e : Time) (lines : LineSet) (order frameOrder : List Part) (s : State), s.quiet = true →
    let p := { s.ru with sincePulse := s.ru.sincePulse + e, sinceFrame := s.ru.sinceFrame + e }
    let ended : Reference := { p with
      frameCount := s.ru.frameCount + 1, format := s.ru.pendingFormat.getD s.ru.format, pendingFormat := none,
      phase := if s.ru.pendingFormat = none then (s.ru.phase + 1) % cadenceLength s.ru.format else 0,
      ticks := 0, sinceFrame := 0 }
    let sets := frameSets s.ru.format s.ru.phase
    let after := exec (.setTick e lines order frameOrder) s
    let ticked (t : State) : Prop := t.lineIn = lines ∧
      (∀ n : LineQuad, (t.rings.get (lineRing n)).written = (s.rings.get (lineRing n)).written + 1 ∧
        (t.rings.get (lineRing n)).store.head? =
          some ⟨Table.tab 4 fun i => lines.get (quadTrack n i), Table.fill 4 true⟩) ∧
      ∀ r : RingNo, r.val < 32 → t.rings.get r = s.rings.get r
    (s.ru.state = .locked → sets ≤ s.ru.ticks → after = .next (s.setRu p)) ∧
    (s.ru.ticks < sets → ∃ t, after = .next t ∧ ticked t ∧
      (order = [] → frameOrder = [] → ∀ l : Fin 16, t.lineOut.get l = BitVec.ofInt 24 (mixValue
        (underruns domain8 (walk (List.finRange 4) (writeLineRing lines) s)) (domainDest domain8 l))) ∧
      (s.ru.state = .free → s.ru.ticks + 1 = sets → t.ru = ended ∧ SwitchesCommit domain8 s t) ∧
      (s.ru.state = .locked ∨ s.ru.ticks + 1 < sets → t.ru = { p with ticks := s.ru.ticks + 1 })) ∧
    (s.ru.state = .free → sets ≤ s.ru.ticks → ∃ t, after = .next t ∧ ticked t ∧ t.ru = { ended with ticks := 1 } ∧
      SwitchesCommit domain8 s t)

/-- REFERENCE_PULSE: in FREE it takes the RU to LOCKED with a short frame, phase 0 and REFERENCE RESTORED; in LOCKED it ends the frame, the owed ticks emitted first, from half a nominal period on, and ends nothing before; it always restarts the time since the last pulse (R12, R14, R41). REFERENCE_WAIT_TIMEOUT ends a LOCKED frame by the internal clock at one and a half nominal periods; REFERENCE_LOST takes a LOCKED RU to FREE at two nominal periods since the last pulse, with the frame going on (R12, R13); that before those times only time passes is the model's choice (log entry 10). Every frame end switches domain 8 in a commit in flight (R102). The parts of an instant of domain 8: those of its ticks, each taken once for each tick, before the frame end but for the writes and offers that the operand holds over; and with the frame end the take points, the switch, the clip marks, the line inputs where the frame carried a set, and the silence timer's count, each once (R11, R64, R66, R69, R102, R131, R135, R137, R168; log entry 3). That a part is taken whole is the model's choice (log entry 37), and that the frame count rises before the parts of the frame end is its deduction (log entry 16). A pulse, a time-out and the loss of the reference take these parts at the ticks owed and at the frame end, and then the CX goes on, which is the model's choice (log entry 32), and so it is that owed ticks without line inputs of their own take the last ones (log entry 26). The frame end itself: the count rises, a pending format comes into force, and the next frame begins at its first tick, at phase 0 after a realignment or a new format, with the Check Mixer's choice to come (R11, R14, R41, R144). -/
def Obligations.PulsesAndTimeOutsEndFrames : Prop :=
  (∀ (e : Time) (owed : OwedTicks) (frameOrder : List Part) (s : State), s.awake = true →
    let timed := s.setRu { s.ru with sincePulse := s.ru.sincePulse + e, sinceFrame := s.ru.sinceFrame + e }
    let n := frameSets s.ru.format s.ru.phase - s.ru.ticks
    let ticks := (owed.lines ++ List.replicate n (owed.lines.getLastD s.lineIn)).take n
    let ended := endingTicks false ticks owed.order frameOrder timed
    let pulsed (u : State) := Host.Outcome.next (ρ := Refusal) (φ := Fault) (finish (u.setRu { u.ru with sincePulse := 0 }))
    (s.ru.state = .free → exec (.referencePulse e owed frameOrder) s = pulsed (report .referenceRestored .reference
      (endingTicks true [] [] frameOrder (timed.setRu { timed.ru with state := .locked })))) ∧
    (s.ru.state = .locked → exec (.referencePulse e owed frameOrder) s =
      pulsed (if nominalPeriod s.ru.format ≤ 2 * (s.ru.sinceFrame + e) then ended else timed)) ∧
    exec (.referenceWaitTimeout e owed frameOrder) s = .next (finish
      (if s.ru.state = .locked ∧ 3 * nominalPeriod s.ru.format ≤ 2 * (s.ru.sinceFrame + e) then ended else timed)) ∧
    exec (.referenceLost e) s = .next (finish
      (if s.ru.state = .locked ∧ 2 * nominalPeriod s.ru.format ≤ s.ru.sincePulse + e then
        report .referenceLost .reference (timed.setRu { timed.ru with state := .free }) else timed))) ∧
  (∀ (e : Time) (owed : OwedTicks) (frameOrder : List Part) (s : State), s.quiet = true →
    let p := { s.ru with sincePulse := 0, sinceFrame := s.ru.sinceFrame + e }
    let ended := { p with
      frameCount := s.ru.frameCount + 1, format := s.ru.pendingFormat.getD s.ru.format, pendingFormat := none,
      ticks := 0, sinceFrame := 0 }
    let after := exec (.referencePulse e owed frameOrder) s
    (s.ru.state = .free → ∃ t, after = .next t ∧ t.ru = { ended with state := .locked, phase := 0 } ∧
      t.rings = s.rings ∧ t.log.tells .referenceRestored .reference = true ∧ SwitchesCommit domain8 s t) ∧
    (s.ru.state = .locked → 2 * (s.ru.sinceFrame + e) < nominalPeriod s.ru.format → after = .next (s.setRu p)) ∧
    (s.ru.state = .locked → nominalPeriod s.ru.format ≤ 2 * (s.ru.sinceFrame + e) → ∃ t, after = .next t ∧
      t.ru = { ended with
        phase := if s.ru.pendingFormat = none then (s.ru.phase + 1) % cadenceLength s.ru.format else 0 } ∧
      SwitchesCommit domain8 s t ∧
      ∀ n : LineQuad, (t.rings.get (lineRing n)).written =
        (s.rings.get (lineRing n)).written + (frameSets s.ru.format s.ru.phase - s.ru.ticks))) ∧
  (∀ (e : Time) (owed : OwedTicks) (frameOrder : List Part) (s : State), s.quiet = true →
    let p := { s.ru with sincePulse := s.ru.sincePulse + e, sinceFrame := s.ru.sinceFrame + e }
    let waited := s.ru.state = .locked ∧ 3 * nominalPeriod s.ru.format ≤ 2 * (s.ru.sinceFrame + e)
    let lost := s.ru.state = .locked ∧ 2 * nominalPeriod s.ru.format ≤ s.ru.sincePulse + e
    (waited → ∃ t, exec (.referenceWaitTimeout e owed frameOrder) s = .next t ∧
      t.ru = { p with
        frameCount := s.ru.frameCount + 1, format := s.ru.pendingFormat.getD s.ru.format, pendingFormat := none,
        phase := if s.ru.pendingFormat = none then (s.ru.phase + 1) % cadenceLength s.ru.format else 0,
        ticks := 0, sinceFrame := 0 } ∧
      SwitchesCommit domain8 s t ∧
      ∀ n : LineQuad, (t.rings.get (lineRing n)).written =
        (s.rings.get (lineRing n)).written + (frameSets s.ru.format s.ru.phase - s.ru.ticks)) ∧
    (¬waited → exec (.referenceWaitTimeout e owed frameOrder) s = .next (s.setRu p)) ∧
    (lost → exec (.referenceLost e) s = .next (report .referenceLost .reference (s.setRu { p with state := .free }))) ∧
    (¬lost → exec (.referenceLost e) s = .next (s.setRu p))) ∧
  (∀ (carried : Bool) (lines : LineSet) (s : State),
    let take (p : Part) := instantPart carried lines p s
    (∀ n, take (.lineWrite n) = writeEvent (lineRing n)
      [⟨Table.tab 4 fun i => lines.get (quadTrack n i), Table.fill 4 true⟩] s) ∧
    (take .emission = (emission domain8 s).setRu { s.ru with ticks := s.ru.ticks + 1 }) ∧
    (∀ l, take (.lineOffer l) = offerLine lines l s) ∧ take .takePoints = judgeTakePoints domain8 s ∧
    take .switch = switchAt domain8 true s ∧ take .clips = handOverClips domain8 s ∧ take .silence = countSilence s ∧
    ∀ l, take (.presence l) = if carried then judgeTrack (lineTrack l) s else s) ∧
  (∀ (realign : Bool) (s : State), turnFrame8 realign s = (s.setRu { s.ru with
    frameCount := s.ru.frameCount + 1, format := s.ru.pendingFormat.getD s.ru.format, pendingFormat := none
    phase := if s.ru.pendingFormat ≠ none ∨ realign = true then 0 else (s.ru.phase + 1) % cadenceLength s.ru.format
    ticks := 0, sinceFrame := 0 }).setRound domain8 { s.cm.rounds.get domain8 with fresh := true }) ∧
  ∀ (realign : Bool) (ticks : List LineSet) (order frameOrder : List Part) (s : State),
    let ofTick : List Part := (List.finRange 4).map .lineWrite ++ [.emission] ++ (List.finRange 16).map .lineOffer
    let before := beforeFrameEnd ticks order frameOrder
    let s1 := takeParts ticks true [] before { s with lineIn := ticks.getLastD s.lineIn }
    let held := withFrameEnd ticks order frameOrder
    let after := schedule frameOrder
      ([.takePoints, .switch, .clips] ++ (List.finRange 16).map .presence ++ [.silence] ++ held)
    after.Perm ([.takePoints, .switch, .clips] ++ (List.finRange 16).map .presence ++ [.silence] ++ held) ∧
      (before ++ held).Perm (ticks.flatMap fun _ => ofTick) ∧
      (∀ p ∈ held, p ∈ frameOrder ∧ p ≠ .emission) ∧
      endingTicks realign ticks order frameOrder s =
        takeParts ticks (decide (0 < s1.ru.ticks)) before after (turnFrame8 realign s1) ∧
      runningTicks ticks order frameOrder s = takeParts ticks true before (schedule frameOrder held) s1 ∧
      (∀ taken p rest carried u, takeParts ticks carried taken (p :: rest) u =
        takeParts ticks carried (p :: taken) rest (instantPart carried (ticks.getD (taken.count p) u.lineIn) p u)) ∧
      ∀ taken carried u, takeParts ticks carried taken [] u = u

/-! ## Mixing, watching and checking -/

/-- Every emitted value is a sample, a value in range passes unchanged to a 24-bit destination, and a value of an EMBED20 quad is the nearest multiple of 16, halves away from zero, held at 8388592 (R130, R132). The record of a pair is the one that is not FREE and has its ring and domain (R54, R122). Fetch: the sample at the source's position of the set at take - delay on the record of its pair, and 0 where no set is read or the position's active flag is off (R60, R75, R122). Polarity, gain and sum are exact, division rounds to the nearest with halves away from zero, mute gives 0, and a ramp blends the scaled values of its old entry and of the entry in force (R124 to R127; section 0.6). The value of a destination is its pre-saturation value, so scaled or so blended, saturated, and reduced to a 20-bit step where the mode in force of its quad is EMBED20 (R126, R130, R132). -/
def Obligations.DestinationArithmetic : Prop :=
  (∀ (s : State) (r : RingNo) (d : Domain),
    let named (i : RecordNo) := (s.tpt.get i).state ≠ .free ∧ (s.tpt.get i).ring = r ∧ (s.tpt.get i).domain = d
    (recordOf? s (r, d) = none ↔ ∀ i, ¬named i) ∧
    (∀ tp, recordOf? s (r, d) = some tp → ∃ i, s.tpt.get i = tp ∧ named i) ∧
    (pairsDistinct s.tpt = true → ∀ i, named i → recordOf? s (r, d) = some (s.tpt.get i))) ∧
  (∀ (s : State) (d : Domain) (delay : Nat) (src : Source),
    let pair := (sourceRing src, d)
    (recordOf? s pair = none → fetch s d delay src = 0) ∧
    ∀ tp, recordOf? s pair = some tp →
      (tp.state ≠ .running → fetch s d delay src = 0) ∧ (tp.take < delay → fetch s d delay src = 0) ∧
      (tp.state = .running → delay ≤ tp.take →
        fetch s d delay src = match (s.rings.get tp.ring).read (tp.take - delay) with
          | none => 0
          | some x => if x.active.get (sourcePosition src) then (x.samples.get (sourcePosition src)).toInt else 0)) ∧
  ((∀ (a : Int) (b : Nat), 0 < b → 2 * (roundDiv a b * b - a).natAbs ≤ b ∧ roundDiv (-a) b = -roundDiv a b ∧
    (0 ≤ a → 2 * (roundDiv a b * b - a) > -(b : Int))) ∧
  (∀ (s : State) (d : Domain) (e : Entry),
    (e.source = none → wideValue s d e = 0) ∧
    (∀ src, e.source = some src → e.partner = none →
      wideValue s d e = (if e.invert then -fetch s d e.delay src else fetch s d e.delay src) * e.gain.toNat) ∧
    (∀ src p, e.source = some src → e.partner = some p →
      wideValue s d e = (if e.invert then -fetch s d e.delay src else fetch s d e.delay src) * e.gain.toNat +
        (if p.invert then -fetch s d e.delay p.source else fetch s d e.delay p.source) * p.gain.toNat) ∧
    scaledValue s d e = if e.mute then 0 else roundDiv (wideValue s d e) 16384) ∧
  ∀ (old new : Int) (k n : Nat), 0 < k → blend old new k n = roundDiv (old * ((k : Int) - n) + new * n) k ∧
    blend old new k 0 = old) ∧
  (∀ (s : State) (x : Dest),
    let new := scaledValue s (destDomain x) (s.active.entries.get x)
    let saturated := max (-8388608) (min 8388607 (preSaturation s x))
    (s.ramps.get x = none → preSaturation s x = new) ∧
    (∀ r, s.ramps.get x = some r →
      preSaturation s x = blend (scaledValue s (destDomain x) r.old) new r.length r.progress) ∧
    (is20 s x = true ↔ ∃ q : OutQuad, q.val = x.val / 4 ∧ s.active.modes.get q = .embed20) ∧
    mixValue s x = if is20 s x then round20 saturated else saturated) ∧
  ((∀ (s : State) (x : Dest), -8388608 ≤ mixValue s x ∧ mixValue s x ≤ 8388607 ∧
    (is20 s x = true → mixValue s x % 16 = 0) ∧
    (is20 s x = false → mixValue s x = max (-8388608) (min 8388607 (preSaturation s x)))) ∧
  ∀ v : Int, -8388608 ≤ v → v ≤ 8388607 →
    (v < 8388600 → 2 * (round20 v - v).natAbs ≤ 16) ∧ (8388600 ≤ v → round20 v = 8388592) ∧
      (-8388600 < v → v < 8388600 → round20 (-v) = -round20 v) ∧ (0 ≤ v → v % 16 = 8 → v < 8388600 → round20 v = v + 8))

/-- The judgment of a watched track moves it as the table of chapter 8.2 says, and SILENCE is recorded only when a referenced track goes from PRESENT to SILENT (R136, R138); a track of a quad that is not PRESENT is not judged and loses its peak (R136). An offer raises the frame peak to the largest magnitude offered, 0 for a sample whose active flag is off (R135). The hand-over of a domain's clip marks records CLIPPING for each mark set, in ascending order, and clears the domain's marks alone (R131, R140). SET PRESENCE stores the threshold and the presence frames brought into range, CLAMPED when either was changed, and reports them with the state of every watched track; with no words it only reports (R141, R142). A track is referenced when a destination in use names it as its primary or its partner source (R138). Watched track 16s + t is track t of feed s, track 128 + l line input l, and the tracks of ring r are 4r to 4r + 3 (R134, R135; section 0.6). -/
def Obligations.PresenceJudgedAndSet : Prop :=
  ([.unknown, .present, .silent].map presenceCode = [0, 1, 2] ∧
    (∀ f t, (feedTrack f t).val = 16 * f.val + t.val) ∧ (∀ l, (lineTrack l).val = 128 + l.val) ∧
    (∀ r p, (ringTrack r p).val = 4 * r.val + p.val) ∧ (∀ w, (trackRing w).val = w.val / 4) ∧
    (∀ q p, (quadTrack q p).val = 4 * q.val + p.val) ∧
    ∀ (b : Bank) (w : TrackNo), trackReferenced b w = true ↔ ∃ x, inUseIn b x = true ∧
      ((∃ src, (b.entries.get x).source = some src ∧ sourceNumber src = w) ∨
        ∃ p, (b.entries.get x).partner = some p ∧ sourceNumber p.source = w)) ∧
  (∀ (r : RingNo) (sets : List SampleSet) (s : State),
    let t := offerSets r sets s
    t = s.setTracks t.watch.tracks ∧ (∀ w, trackRing w ≠ r → t.watch.tracks.get w = s.watch.tracks.get w) ∧
    ∀ p : Fin 4, let k := s.watch.tracks.get (ringTrack r p)
      t.watch.tracks.get (ringTrack r p) = { k with peak := sets.foldl (fun m x =>
        max m (if x.active.get p then (x.samples.get p).toInt.natAbs else 0)) k.peak }) ∧
  (∀ (lines : LineSet) (l : Fin 16) (s : State), let k := s.watch.tracks.get (lineTrack l)
    offerLine lines l s = s.setTracks (s.watch.tracks.set (lineTrack l)
      { k with peak := max k.peak (lines.get l).toInt.natAbs })) ∧
  (∀ (f : Feed) (k : Fin 16) (s : State), let w := feedTrack f k
    let present := ((s.fr.get f).quads.get ⟨k.val / 4, by omega⟩).state = .present
    (present → judgeFeedTrack f k s = judgeTrack w s) ∧
    (¬present → judgeFeedTrack f k s =
      s.setTracks (s.watch.tracks.set w { s.watch.tracks.get w with peak := 0 }))) ∧
  (∀ (d : Domain) (s : State),
    let t := handOverClips d s
    let marked := (List.finRange 16).filter fun k => s.clips.get (domainDest d k)
    let told := marked.foldl (fun u k => report .clipping (.destination (domainDest d k)) u) s
    t.log = told.log ∧ t.mgmt = told.mgmt ∧
      ∀ x, t.clips.get x = if destDomain x = d then false else s.clips.get x) ∧
  (∀ (w : TrackNo) (s : State),
    let k := s.watch.tracks.get w
    let count := min 255 (k.below + 1)
    let t := judgeTrack w s
    let k' := t.watch.tracks.get w
    (∀ w', w' ≠ w → t.watch.tracks.get w' = s.watch.tracks.get w') ∧ k'.peak = 0 ∧
    (s.watch.threshold ≤ k.peak → k'.presence = .present ∧ k'.below = 0 ∧ t.log = s.log) ∧
    (k.peak < s.watch.threshold → k'.below = count ∧
      (count < s.watch.frames → k'.presence = k.presence ∧ t.log = s.log) ∧
      (s.watch.frames ≤ count → k'.presence = .silent ∧
        t.log = if k.presence = .present ∧ trackReferenced s.active w = true then
          (report .silence (.watchedTrack w) s).log else s.log))) ∧
  (∀ (tag : Byte) (s : State), s.ready = true →
    let words (threshold frames : Nat) : List Word :=
      [numWord (threshold / 65536), numWord (threshold % 65536), numWord frames] ++ (List.finRange 18).map fun k =>
        numWord (((List.finRange 8).map fun i =>
          presenceCode (s.watch.tracks.get ⟨8 * k.val + i.val, by omega⟩).presence * 4 ^ i.val).sum)
    exec (.setPresence tag []) s =
      .next ((restartTimer s).answering tag 32 .done (words s.watch.threshold s.watch.frames)) ∧
    (∀ args : List Word, args.length ≤ 29 → args.length ≠ 0 → args.length ≠ 3 → exec (.setPresence tag args) s =
      .next ((restartTimer s).answering tag 32 .refusedArgument [])) ∧
    ∀ a b c : Word,
      let asked := a.toNat * 65536 + b.toNat
      let threshold := if 8388607 < asked then 8388607 else asked
      let frames := if c = 0 then 1 else if 255 < c.toNat then 255 else c.toNat
      exec (.setPresence tag [a, b, c]) s =
        .next (({ restartTimer s with watch := ⟨s.watch.tracks, threshold, frames⟩ } : State).answering tag 32
          (if threshold = asked ∧ frames = c.toNat then .done else .clamped) (words threshold frames)))

/-- The Check Mixer's choice at the first emission of a frame: the lowest destination in use at or above the cursor, else the lowest one with the round counted, else none (R144). At each emission it compares its own value for the checked destination, the mixer's value plus 1 while the inject flag is on, with the value that the mixer emits, and a difference records MIXER MISMATCH once in the frame (R145); that the two values are otherwise the same, so that the flag alone brings a difference, is the model's choice (log entry 19). SET MIXER CHECK sets the inject flag, or leaves it, and reports it with every domain's round count and cursor (R146). -/
def Obligations.MixerCheckChoosesAndReports : Prop :=
  (∀ (d : Domain) (s : State), (s.cm.rounds.get d).fresh = true →
    let r := s.cm.rounds.get d
    let inUse := (List.finRange 144).filter fun x => destDomain x = d ∧ inUseIn s.active x = true
    let above := inUse.filter fun x => r.cursor ≤ x.val
    (chooseChecked d s).cm.rounds.get d = match above, inUse with
      | x :: _, _ => ⟨x.val + 1, r.count, some x, false, false⟩
      | [], x :: _ => ⟨x.val + 1, r.count + 1, some x, false, false⟩
      | [], [] => ⟨r.cursor, r.count, none, false, false⟩) ∧
  (∀ (d : Domain) (value : Dest → Int) (s : State),
    let r := s.cm.rounds.get d
    let after := compareChecked d value s
    (r.checked = none → after = s) ∧
    ∀ x, r.checked = some x →
      let own := mixValue s x + if s.cm.inject then 1 else 0
      (own = value x ∨ r.mismatch = true → after = s) ∧
      (own ≠ value x → r.mismatch = false →
        after = report .mixerMismatch (.destination x) (s.setRound d { r with mismatch := true }))) ∧
  (∀ (d : Domain) (s : State), let u := chooseChecked d (underruns d s)
    ∃ value : Dest → Int, (∀ x, destDomain x = d → carriedIn s.active x = true → value x = mixValue u x) ∧
      (emission d s).cm = (compareChecked d value u).cm ∧ (emission d s).log = (compareChecked d value u).log) ∧
  ∀ (tag : Byte) (s : State), s.ready = true →
    let words (inject : Bool) : List Word := flagWord inject :: (List.finRange 9).flatMap fun d =>
      [(s.cm.rounds.get d).count, numWord (s.cm.rounds.get d).cursor]
    exec (.setMixerCheck tag []) s = .next ((restartTimer s).answering tag 41 .done (words s.cm.inject)) ∧
    (∀ on : Bool, exec (.setMixerCheck tag [flagWord on]) s =
      .next (({ restartTimer s with cm := ⟨s.cm.rounds, on⟩ } : State).answering tag 41 .done (words on))) ∧
    (∀ args : List Word, args.length ≤ 29 → 2 ≤ args.length → exec (.setMixerCheck tag args) s =
      .next ((restartTimer s).answering tag 41 .refusedArgument [])) ∧
    ∀ w : Word, 2 ≤ w.toNat →
      exec (.setMixerCheck tag [w]) s = .next ((restartTimer s).answering tag 41 .refusedArgument [])

/-- START PATH CHECK waits for the domain's next frame boundary, or is aborted at once where the domain does not run; the boundary begins the check with the frame it opens, and the next one completes it with the answer's 23 words (R148, R151, R152). That the PC's tallies are clear while it waits is the model's choice (log entry 33). On an output line of the checked frame: on a quiet line the slots that carry a packet are noted, and that nothing of the packet joins the tally is the model's choice (log entry 36); at the first carrying line the quads that embed are marked checked, and where none is the check is aborted; from it on each checked quad fails by what its slot carries against the distribution and R35, and each of its tracks by the samples against the values the MX handed over for the line (R149, R150, R152). The stop of the domain aborts the check (R152). -/
def Obligations.PathCheckRunsOneFrame : Prop :=
  (∀ (f : Feed) (line : Nat) (slots : Table 4 (Option Packet)) (s : State),
    let after := pathCheckLine f line slots s
    let mode (q : Quad) := s.active.modes.get (outQuad f q)
    let tally (q : Quad) : Tally := if s.pc.marked then s.pc.quads.get q else { s.pc.quads.get q with
      checked := embeds (mode q), fail := embeds (mode q) && (s.pc.quads.get q).noted }
    (s.pc.state ≠ .checking ∨ s.pc.feed ≠ f → after = s) ∧
    (s.pc.state = .checking → s.pc.feed = f →
      (line ≤ 2 → after = s.setPc { s.pc with quads := Table.tab 4 fun q =>
        { s.pc.quads.get q with noted := (s.pc.quads.get q).noted || (slots.get q).isSome } }) ∧
      (2 < line → (∀ q, (tally q).checked = false) → ∃ p : PathChecker, p.state = .idle ∧
        after = answerCommand .aborted ([numWord f.val, numWord s.pc.phase, numWord s.pc.total] ++ List.replicate 16 1 ++
          List.replicate 4 0) (s.setPc p)) ∧
      (∀ fm, 2 < line → line ≤ linesOf fm → (s.fr.get f).detected = some fm → (∃ q, (tally q).checked = true) →
        let n := setsOnFrameLine fm s.pc.phase line
        ∃ p : PathChecker, after = s.setPc p ∧ p.state = .checking ∧ p.marked = true ∧
          (∀ q, (tally q).checked = false → p.quads.get q = tally q) ∧
          (∀ q, (tally q).checked = true → slots.get q = none →
            p.quads.get q = { tally q with fail := (tally q).fail || n != 0 }) ∧
          (∀ q k, (tally q).checked = true → slots.get q = some k →
            let h := k.soundHead
            let asAsked := k.checksum = checksumOf k.header k.content ∧
              k.header = makeHeader 1 q.val (1 + 6 * h.setCount.toNat) ∧ h.setCount.toNat = n ∧
              h.phase.toNat = s.pc.phase ∧ (h.first = true ↔ (tally q).lastCount = none) ∧
              (∀ c, (tally q).lastCount = some c → h.count = c + 1) ∧ (h.wide = true ↔ mode q = .embed24) ∧
              ∀ i, h.active.get i = (s.active.entries.get (quadDest (outQuad f q) i)).source.isSome
            (p.quads.get q).checked = true ∧
              ((p.quads.get q).fail = true ↔ (tally q).fail = true ∨ n = 0 ∨ ¬asAsked) ∧
              (p.quads.get q).sets = (tally q).sets + h.setCount.toNat ∧ (p.quads.get q).lastCount = some h.count ∧
              (p.quads.get q).firstSeen = ((tally q).firstSeen || h.first)) ∧
          ∀ (q : Quad) (i : Fin 4), (p.tracks.get (quadTrack q i) = true ↔ s.pc.tracks.get (quadTrack q i) = true ∨
            ((tally q).checked = true ∧ ∃ k, slots.get q = some k ∧
              k.soundHead.setCount.toNat = (s.fmt.get f).sets.length ∧
              (k.soundSets.map fun x => x.samples.get i) ≠ (s.fmt.get f).sets.map fun v => v.get (quadTrack q i)))))) ∧
  (∀ (f : Feed) (s : State), let after := pathCheckStop f s
    (s.pc.state = .idle ∨ s.pc.feed ≠ f → after = s) ∧
    (s.pc.feed = f → s.pc.state = .waiting → after = answerCommand .aborted
      ([numWord f.val, 255, 0] ++ List.replicate 16 1 ++ List.replicate 4 0) (s.setPc { s.pc with state := .idle })) ∧
    (s.pc.feed = f → s.pc.state = .checking → after = answerCommand .aborted
      ([numWord f.val, numWord s.pc.phase, numWord s.pc.total] ++ List.replicate 16 1 ++
        s.pc.quads.cells.map fun q => if q.checked then numWord q.sets else 0)
      (s.setPc { s.pc with state := .idle }))) ∧
  (∀ (tag : Byte) (f : Feed) (s : State), s.ready = true →
    let after := exec (.startPathCheck tag [numWord f.val]) s
    let p : PathChecker := { PathChecker.start with feed := f }
    (domainRunning s (feedDomain f) = true →
      after = .next ((s.judging ⟨tag, 40, [numWord f.val]⟩).setPc { p with state := .waiting })) ∧
    (domainRunning s (feedDomain f) = false → after = .next (((restartTimer s).setPc p).answering tag 40 .aborted
      ([numWord f.val, 255, 0] ++ List.replicate 16 1 ++ List.replicate 4 0))) ∧
    ∀ w : Word, 8 ≤ w.toNat →
      exec (.startPathCheck tag [w]) s = .next ((restartTimer s).answering tag 40 .refusedArgument [])) ∧
  ∀ (f : Feed) (fm : Format) (s : State), s.pc.feed = f → (s.fr.get f).detected = some fm →
    let k := (s.fmt.get f).phase
    let failed (q : Quad) := (s.pc.quads.get q).fail = true ∨ (s.pc.quads.get q).sets ≠ s.pc.total
    (s.pc.state = .waiting → pathCheckBoundary f s =
      s.setPc ⟨.checking, f, k, frameSets fm k, false, Table.fill 4 Tally.clear, Table.fill 16 false⟩) ∧
    (s.pc.state = .checking → ∃ p words, pathCheckBoundary f s = answerCommand .done words (s.setPc p) ∧ p.state = .idle ∧
      words.length = 23 ∧ words.take 3 = [numWord f.val, numWord s.pc.phase, numWord s.pc.total] ∧
      (∀ t : Fin 16, let q : Quad := ⟨t.val / 4, by omega⟩
        ((s.pc.quads.get q).checked = false → words.getD (3 + t.val) 0 = 2) ∧
        ((s.pc.quads.get q).checked = true → failed q ∨ s.pc.tracks.get t = true → words.getD (3 + t.val) 0 = 1) ∧
        ((s.pc.quads.get q).checked = true → ¬failed q → s.pc.tracks.get t = false → words.getD (3 + t.val) 9 = 0)) ∧
      ∀ q : Quad, words.getD (19 + q.val) 9 =
        if (s.pc.quads.get q).checked then numWord (s.pc.quads.get q).sets else 0)

/-! ## The patch map -/

/-- WRITE ENTRY replaces one entry of a staging bank whole, with the delay held at 6000, and answers as READ ENTRY does; READ ENTRY's words; and the forms both refuse (R84, R85, R89). The codes of sources, banks and ramps, and the ring of a source and its position in each set (R74, R75, R83, R122). -/
def Obligations.WriteAndReadEntry : Prop :=
  ((∀ f k, (sourceNumber (.feedTrack f k)).val = 16 * f.val + k.val ∧ (sourceRing (.feedTrack f k)).val = 4 * f.val + k.val / 4 ∧
      (sourcePosition (.feedTrack f k)).val = k.val % 4) ∧
    (∀ l, (sourceNumber (.lineInput l)).val = 128 + l.val ∧ (sourceRing (.lineInput l)).val = 32 + l.val / 4 ∧
      (sourcePosition (.lineInput l)).val = l.val % 4) ∧
    sourceWord none = 255 ∧ (∀ src, sourceWord (some src) = numWord (sourceNumber src).val) ∧
    [.active, .s0, .s1, .f].map bankCode = [0, 1, 2, 3] ∧ [.s0, .s1].map stagingCode = [1, 2] ∧
    [.none, .short, .medium, .long].map rampWord = [0, 1, 2, 3] ∧
    [.none, .short, .medium, .long].map rampLength = [0, 32, 128, 512]) ∧
  ∀ (tag : Byte) (s : State), s.ready = true →
    let words (t : State) (b : BankCode) (x : Dest) : List Word :=
      let e := (bankOf t b).entries.get x
      [bankCode b, numWord x.val, sourceWord e.source, e.gain, flagWord e.invert, sourceWord (e.partner.map fun p => p.source),
        e.partner.elim 0 (fun p => p.gain), e.partner.elim 0 (fun p => flagWord p.invert), numWord e.delay, rampWord e.ramp,
        flagWord e.mute, flagWord (inUseIn (bankOf t b) x), numWord (pairNeed (bankOf t b))]
    (∀ (b : Staging) (x : Dest) (source partner : Option Source) (gain pgain delay : Word) (invert pinvert mute : Bool)
        (ramp : RampCode), partner = none ∨ source ≠ none →
      let e : Entry := ⟨source, gain, invert, partner.map fun p => ⟨p, pgain, pinvert⟩, min 6000 delay.toNat, ramp, mute⟩
      let t := setStaging b { stagingOf s b with entries := (stagingOf s b).entries.set x e } (restartTimer s)
      exec (.writeEntry tag [numWord (stagingCode b), numWord x.val, sourceWord source, gain, flagWord invert,
          sourceWord partner, pgain, flagWord pinvert, delay, rampWord ramp, flagWord mute]) s =
        .next (t.answering tag 16 (if 6000 < delay.toNat then .clamped else .done) (words t (stagingBank b) x))) ∧
    (∀ args : List Word, args.length ≤ 29 → args.length ≠ 11 → exec (.writeEntry tag args) s =
      .next ((restartTimer s).answering tag 16 .refusedArgument [])) ∧
    (∀ args : List Word, args.length ≤ 29 → args.length ≠ 2 → exec (.readEntry tag args) s =
      .next ((restartTimer s).answering tag 19 .refusedArgument [])) ∧
    (∀ a b src gain inv psrc pgain pinv delay ramp mute : Word,
      (a ≠ 1 ∧ a ≠ 2) ∨ 144 ≤ b.toNat ∨ (144 ≤ src.toNat ∧ src ≠ 255) ∨ 2 ≤ inv.toNat ∨ (144 ≤ psrc.toNat ∧ psrc ≠ 255) ∨
        2 ≤ pinv.toNat ∨ 4 ≤ ramp.toNat ∨ 2 ≤ mute.toNat ∨ (src = 255 ∧ psrc ≠ 255) →
      exec (.writeEntry tag [a, b, src, gain, inv, psrc, pgain, pinv, delay, ramp, mute]) s =
        .next ((restartTimer s).answering tag 16 .refusedArgument [])) ∧
    (∀ (b : BankCode) (x : Dest), exec (.readEntry tag [bankCode b, numWord x.val]) s =
      .next ((restartTimer s).answering tag 19 .done (words s b x))) ∧
    ∀ a b : Word, 4 ≤ a.toNat ∨ 144 ≤ b.toNat →
      exec (.readEntry tag [a, b]) s = .next ((restartTimer s).answering tag 19 .refusedArgument [])

/-- WRITE QUAD MODE, COPY BANK and READ QUAD MODES: their effects, their result words with the pair need, and the forms they refuse (R86, R87, R90). A destination is in use in a bank when its entry has a source and it is a line output or its quad embeds (R81); a bank's references to a pair are counted over its destinations in use, one for each source, and its pair need is the number of pairs with at least one (R82). Destination 16d + t and output quad 4d + q belong to domain d, and output quad 4d + q holds destinations 16d + 4q to 16d + 4q + 3 (R79); the banks, by their names (R77). -/
def Obligations.QuadModesAndCopyBank : Prop :=
  ((∀ f, (feedDomain f).val = f.val) ∧ domain8.val = 8 ∧ (∀ d t, (domainDest d t).val = 16 * d.val + t.val) ∧
    (∀ x, (destDomain x).val = x.val / 16) ∧ (∀ f q, (outQuad f q).val = 4 * f.val + q.val) ∧
    (∀ q, (quadDomain q).val = q.val / 4) ∧ (∀ q p, (quadDest q p).val = 4 * q.val + p.val) ∧
    ∀ s : State, [.active, .s0, .s1, .f].map (bankOf s) = [s.active, s.s0, s.s1, s.failsafe] ∧
      [.s0, .s1].map (stagingOf s) = [s.s0, s.s1] ∧
      ∀ k, setStaging .s0 k s = { s with s0 := k } ∧ setStaging .s1 k s = { s with s1 := k }) ∧
  ([.pass, .remove, .embed24, .embed20].map modeCode = [0, 1, 2, 3] ∧
    (∀ (b : Bank) (x : Dest), (carriedIn b x = true ↔ 128 ≤ x.val ∨ ∃ q : OutQuad, q.val = x.val / 4 ∧
        (b.modes.get q = .embed24 ∨ b.modes.get q = .embed20)) ∧
      (inUseIn b x = true ↔ (b.entries.get x).source ≠ none ∧ carriedIn b x = true)) ∧
    ∀ b : Bank,
      let references (p : RingNo × Domain) : Nat := ((List.finRange 144).map fun x =>
        let e := b.entries.get x
        if destDomain x = p.2 ∧ inUseIn b x = true then
          (e.source.elim 0 fun src => if sourceRing src = p.1 then 1 else 0) +
            (e.partner.elim 0 fun k => if sourceRing k.source = p.1 then 1 else 0)
        else 0).sum
      (∀ p, (bankPairs b).count p = references p) ∧
        pairNeed b = (Finset.univ.filter fun p : RingNo × Domain => 1 ≤ references p).card) ∧
  ∀ (tag : Byte) (s : State), s.ready = true →
    let t := restartTimer s
    (∀ (b : Staging) (q : OutQuad) (m : QuadMode),
      let k : Bank := { stagingOf s b with modes := (stagingOf s b).modes.set q m }
      exec (.writeQuadMode tag [numWord (stagingCode b), numWord q.val, modeCode m]) s =
        .next ((setStaging b k t).answering tag 17 .done
          [numWord (stagingCode b), numWord q.val, modeCode m, numWord (pairNeed k)])) ∧
    (∀ args : List Word, args.length ≤ 29 → args.length ≠ 3 → exec (.writeQuadMode tag args) s =
      .next (t.answering tag 17 .refusedArgument [])) ∧
    (∀ args : List Word, args.length ≤ 29 → args.length ≠ 2 → exec (.copyBank tag args) s =
      .next (t.answering tag 18 .refusedArgument [])) ∧
    (∀ args : List Word, args.length ≤ 29 → args.length ≠ 3 → exec (.readQuadModes tag args) s =
      .next (t.answering tag 20 .refusedArgument [])) ∧
    (∀ a b c : Word, (a ≠ 1 ∧ a ≠ 2) ∨ 32 ≤ b.toNat ∨ 4 ≤ c.toNat →
      exec (.writeQuadMode tag [a, b, c]) s = .next (t.answering tag 17 .refusedArgument [])) ∧
    (∀ (b : BankCode) (d : Staging), exec (.copyBank tag [bankCode b, numWord (stagingCode d)]) s =
      .next ((setStaging d (bankOf s b) t).answering tag 18 .done
        [bankCode b, numWord (stagingCode d), numWord (pairNeed (bankOf s b))])) ∧
    (∀ a b : Word, 4 ≤ a.toNat ∨ (b ≠ 1 ∧ b ≠ 2) →
      exec (.copyBank tag [a, b]) s = .next (t.answering tag 18 .refusedArgument [])) ∧
    (∀ (b : BankCode) (first n : Nat), first < 32 → 1 ≤ n → n ≤ 24 → first + n ≤ 32 →
      exec (.readQuadModes tag [bankCode b, numWord first, numWord n]) s = .next (t.answering tag 20 .done
        ([bankCode b, numWord first, numWord n, numWord (pairNeed (bankOf s b))] ++
          (((bankOf s b).modes.cells.drop first).take n).map modeCode))) ∧
    ∀ a b c : Word, 4 ≤ a.toNat ∨ 32 ≤ b.toNat ∨ c = 0 ∨ 24 < c.toNat ∨ 32 < b.toNat + c.toNat →
      exec (.readQuadModes tag [a, b, c]) s = .next (t.answering tag 20 .refusedArgument [])

/-- SET GUARD in its three steps, and READ GUARDS with the count of the destinations guarded; a destination is guarded when an enabled range covers it, and an output quad when at least one of its four destinations is (R79, R91, R92, R94). -/
def Obligations.GuardRangesJudged : Prop :=
  (∀ (g : Table 4 Guard) (x : Dest), destGuarded g x = true ↔
    ∃ i, (g.get i).enabled = true ∧ (g.get i).low ≤ x ∧ x ≤ (g.get i).high) ∧
  (∀ (g : Table 4 Guard) (q : OutQuad), quadGuarded g q = true ↔ ∃ x : Dest, x.val / 4 = q.val ∧ destGuarded g x = true) ∧
  ∀ (tag : Byte) (s : State), s.ready = true →
    let t := restartTimer s
    (∀ (i : Fin 4) (enabled : Bool) (low high : Dest) (fixed : Bool),
      let g := s.guards.set i ⟨enabled, low, high, fixed⟩
      let busy := s.ce.inFlight.isSome = true ∧ ∃ x, destGuarded g x = true ∧ destGuarded s.guards x = false
      let after := exec (.setGuard tag [numWord i.val, flagWord enabled, numWord low.val, numWord high.val, flagWord fixed]) s
      (high < low → after = .next (t.answering tag 21 .refusedArgument [])) ∧
      (low ≤ high → (s.guards.get i).fixed = true → after = .next (t.answering tag 21 .refusedFixed [])) ∧
      (low ≤ high → (s.guards.get i).fixed = false → busy → after = .next (t.answering tag 21 .refusedBusy [])) ∧
      (low ≤ high → (s.guards.get i).fixed = false → ¬busy → after = .next (({ t with guards := g } : State).answering tag 21
        .done [numWord i.val, flagWord enabled, numWord low.val, numWord high.val, flagWord fixed]))) ∧
    (∀ args : List Word, args.length ≤ 29 → args.length ≠ 5 → exec (.setGuard tag args) s =
      .next (t.answering tag 21 .refusedArgument [])) ∧
    (∀ a b c d e : Word, 4 ≤ a.toNat ∨ 2 ≤ b.toNat ∨ 144 ≤ c.toNat ∨ 144 ≤ d.toNat ∨ 2 ≤ e.toNat →
      exec (.setGuard tag [a, b, c, d, e]) s = .next (t.answering tag 21 .refusedArgument [])) ∧
    exec (.readGuards tag []) s = .next (t.answering tag 22 .done
      (s.guards.cells.flatMap (fun g => [flagWord g.enabled, numWord g.low.val, numWord g.high.val, flagWord g.fixed]) ++
        [numWord ((List.finRange 144).filter fun x => destGuarded s.guards x).length])) ∧
    ∀ args, args ≠ [] → args.length ≤ 29 →
      exec (.readGuards tag args) s = .next (t.answering tag 22 .refusedArgument [])

/-- STORE FAILSAFE in its three steps: a bank over 3, a pair need over 64 and a write in progress are refused; otherwise F takes the bank and the image write begins with it and the guard ranges (R174, R175). That the store holds no image while it is WRITING is log entry 20's reading of R175. -/
def Obligations.StoreFailsafeBeginsWrite : Prop :=
  ∀ (tag : Byte) (b : BankCode) (s : State), s.ready = true →
    let k := bankOf s b
    let t := restartTimer s
    let after := exec (.storeFailsafe tag [bankCode b]) s
    (64 < pairNeed k → after = .next (t.answering tag 64 .refusedTableFull [bankCode b, numWord (pairNeed k)])) ∧
    (pairNeed k ≤ 64 → s.store.state = .writing → after = .next (t.answering tag 64 .refusedBusy [])) ∧
    (pairNeed k ≤ 64 → s.store.state ≠ .writing → after = .next (({ t with
      failsafe := k
      store := ⟨.writing, none, some ⟨k, s.guards.map fun g => ⟨g.enabled, g.low, g.high⟩⟩⟩ } : State).answering tag 64
        .started [bankCode b, numWord (pairNeed k), 1])) ∧
    (∀ args : List Word, args.length ≤ 29 → args.length ≠ 1 → exec (.storeFailsafe tag args) s =
      .next (t.answering tag 64 .refusedArgument [])) ∧
    ∀ w : Word, 4 ≤ w.toNat → exec (.storeFailsafe tag [w]) s = .next (t.answering tag 64 .refusedArgument [])

/-! ## Commits and cues -/

/-- The switch of a domain brings P's entries and modes into force for that domain alone, ends its old ramps, and begins a ramp for a changed entry with a ramp code in a running domain, where both patches carry the destination (R103, R104, R126). The records of the domain lose the references of the ramps that end and of the old entries, but for those a new ramp takes over, and gain one for each source of the new entries in use; one left with none and not reserved becomes FREE (R56, R103, R104). The built count of a quad that comes to embed restarts at 0 (R36). A domain switches once in a commit in flight, so one that has switched is left as it is; the ninth switch completes it (R102, R106). At validation a feed domain that does not run switches, and one that runs does not (R101). A stop of a feed domain puts its phase to 0, ends its ramps and releases the references they held, clears its clip marks and the Check Mixer's, switches the domain, and may abort its path check (R15, R40, R102, R104, R105, R128, R131, R143, R152). -/
def Obligations.SwitchIsOneDomain : Prop :=
  (∀ (d : Domain) (running : Bool) (s : State),
    let after := switchAt d running s
    (s.ce.inFlight = none → after = s) ∧
    ∀ c, s.ce.inFlight = some c → c.switched.get d = false →
      let c' := { c with switched := c.switched.set d true }
      let t := (switchTo d running c.snapshot s).setCe { s.ce with inFlight := some c' }
      ((∃ e, e ≠ d ∧ c.switched.get e = false) → after = t) ∧
      ((∀ e, e ≠ d → c.switched.get e = true) → after = completeCommit c' t)) ∧
  (∀ (d : Domain) (running : Bool) (c : InFlight) (s : State), s.ce.inFlight = some c → c.switched.get d = true →
    (∃ e, c.switched.get e = false) → switchAt d running s = s) ∧
  (∀ (f : Feed) (s : State),
    (domainRunning s (feedDomain f) = true → switchIfStopped f s = s) ∧
    (∀ c, domainRunning s (feedDomain f) = false → s.ce.inFlight = some c → c.switched.get (feedDomain f) = false →
      switchIfStopped f s = (switchTo (feedDomain f) false c.snapshot s).setCe { s.ce with
        inFlight := some { c with switched := c.switched.set (feedDomain f) true } })) ∧
  (∀ (f : Feed) (s : State), ∃ u : State, stopDomain f s = pathCheckStop f (switchAt (feedDomain f) false u) ∧
    u.ce = s.ce ∧ u.active = s.active ∧ u.pc = s.pc ∧ u.mgmt = s.mgmt ∧ u.log = s.log ∧ u.fr = s.fr ∧
    u.rings = s.rings ∧ u.watch = s.watch ∧ u.cues = s.cues ∧
    u.fmt = s.fmt.set f { s.fmt.get f with phase := 0, sets := [] } ∧
    (∀ x, u.ramps.get x = if destDomain x = feedDomain f then none else s.ramps.get x) ∧
    (∀ x, u.clips.get x = if destDomain x = feedDomain f then false else s.clips.get x) ∧
    (∀ d, u.cm.rounds.get d = if d = feedDomain f then { s.cm.rounds.get d with checked := none, mismatch := false }
      else s.cm.rounds.get d) ∧
    ∀ i, let tp := s.tpt.get i
      let held := ((List.finRange 144).filter fun x => destDomain x = feedDomain f).flatMap fun x =>
        (s.ramps.get x).elim [] fun r => entryPairs r.old (feedDomain f)
      let left := tp.references - held.count (tp.ring, feedDomain f)
      u.tpt.get i = if tp.domain = feedDomain f ∧ tp.state ≠ .free then
        { tp with references := left, state := if left = 0 ∧ tp.reserved = false then .free else tp.state } else tp) ∧
  (∀ (d : Domain) (running : Bool) (p : Bank) (s : State) (i : RecordNo),
    let tp := s.tpt.get i
    let tp' := (switchTo d running p s).tpt.get i
    let held := (tp.ring, d)
    let dests := (List.finRange 144).filter fun x => destDomain x = d
    let ended := (dests.flatMap fun x => (s.ramps.get x).elim [] fun r => entryPairs r.old d).count held
    let released := ((dests.filter fun x => !rampBegins running p s.active x).flatMap (destPairs s.active)).count held
    let left := tp.references - (ended + released) + (dests.flatMap (destPairs p)).count held
    tp.domain = d → tp.state ≠ .free → ended + released ≤ tp.references →
      tp' = { tp with references := left, state := if left = 0 ∧ tp.reserved = false then .free else tp.state }) ∧
  (∀ (running : Bool) (p a : Bank) (x : Dest), rampBegins running p a x = true ↔ running = true ∧ carriedIn a x = true ∧
    carriedIn p x = true ∧ p.entries.get x ≠ a.entries.get x ∧ (p.entries.get x).ramp ≠ .none) ∧
  (∀ (d : Domain) (running : Bool) (p : Bank) (s : State) (f : Feed) (q : Quad),
    let t := switchTo d running p s
    (feedDomain f ≠ d → t.fmt.get f = s.fmt.get f) ∧
    (feedDomain f = d → (t.fmt.get f).built.get q =
      if embeds (p.modes.get (outQuad f q)) = true ∧ embeds (s.active.modes.get (outQuad f q)) = false then 0
      else (s.fmt.get f).built.get q)) ∧
  ∀ (d : Domain) (running : Bool) (p : Bank) (s : State),
    let t := switchTo d running p s
    (∀ x, t.active.entries.get x = if destDomain x = d then p.entries.get x else s.active.entries.get x) ∧
    (∀ q, t.active.modes.get q = if quadDomain q = d then p.modes.get q else s.active.modes.get q) ∧
    (∀ x, destDomain x ≠ d → t.ramps.get x = s.ramps.get x) ∧
    (∀ x, destDomain x = d → t.ramps.get x =
      if running = true ∧ carriedIn s.active x = true ∧ carriedIn p x = true ∧
          p.entries.get x ≠ s.active.entries.get x ∧ (p.entries.get x).ramp ≠ .none then
        some ⟨s.active.entries.get x, rampLength (p.entries.get x).ramp, 0⟩
      else none) ∧
    ∀ i, (s.tpt.get i).domain ≠ d → t.tpt.get i = s.tpt.get i

/-- The pairs held are those of the records that are not FREE, the pairs needed those of the destinations in use in P, each one's primary and then its partner's in ascending order, and the union that a commit is judged on is of both, each pair once (R82, R99, R100). The allocation of an accepted commit: when the union is at most 64, each pair that P needs ends on exactly one record that is not FREE, reserved. The new pairs, those that no record holds, are allocated in the order of the walk, each on the lowest-index FREE record left, FILLING at take 0 without references and with its counters 0; a FREE record beyond them stays as it is (R55, R100). A record held before is marked reserved where P needs its pair, and keeps its mark and everything else where P does not (R100). The records allocated number the needed pairs that no record held (R100). -/
def Obligations.CommitReservesItsPairs : Prop :=
  ((∀ (e : Entry) (d : Domain), entryPairs e d = e.source.elim [] fun src =>
      (sourceRing src, d) :: e.partner.elim [] fun k => [(sourceRing k.source, d)]) ∧
    (∀ (p : Bank) (x : Dest), destPairs p x =
      if inUseIn p x = true then entryPairs (p.entries.get x) (destDomain x) else []) ∧
    ∀ p : Bank, bankPairs p = (List.finRange 144).flatMap (destPairs p)) ∧
  (∀ (p : Bank) (s : State), (unionPairs p s).Nodup ∧
    ∀ pr : RingNo × Domain, (pr ∈ heldPairs s.tpt ↔
        ∃ i, (s.tpt.get i).state ≠ .free ∧ (s.tpt.get i).ring = pr.1 ∧ (s.tpt.get i).domain = pr.2) ∧
      (pr ∈ unionPairs p s ↔ pr ∈ heldPairs s.tpt ∨ pr ∈ bankPairs p)) ∧
  ∀ (p : Bank) (s : State), pairsDistinct s.tpt = true → (unionPairs p s).length ≤ 64 →
    let t := reserveFor p s.tpt
    let fresh : List (RingNo × Domain) := (bankPairs p).foldl (fun (l : List (RingNo × Domain)) pr =>
      if pr ∈ heldPairs s.tpt ∨ pr ∈ l then l else l ++ [pr]) []
    let free := (List.finRange 64).filter fun i => (s.tpt.get i).state = .free
    pairsDistinct t = true ∧
    (∀ pr ∈ bankPairs p, ∃ i, (t.get i).holds pr = true ∧ (t.get i).reserved = true) ∧
    (∀ i, (s.tpt.get i).state ≠ .free → t.get i = { s.tpt.get i with
      reserved := (s.tpt.get i).reserved || decide (((s.tpt.get i).ring, (s.tpt.get i).domain) ∈ bankPairs p) }) ∧
    (∀ (n : Nat) i, free[n]? = some i → t.get i = match fresh[n]? with
      | some pr => ⟨.filling, pr.1, pr.2, 0, 0, true, 0, 0, 0⟩
      | none => s.tpt.get i) ∧
    ((List.finRange 64).filter fun i => (s.tpt.get i).state = .free ∧ (t.get i).state ≠ .free).length =
      ((bankPairs p).dedup.filter fun pr => pr ∉ heldPairs s.tpt).length

/-- The snapshot: the bank a command or a cue names, as it stands; for a failsafe request F with the guarded destinations and quads of the patch in force (R97). Validation: a request from COMMIT or a cue that would change a guarded item is refused whole; then one whose union exceeds 64 is; neither changes the patch or the records. Any other is put in flight with its snapshot, its requester, for a cue the values the cue holds, and the number of records allocated: the records are reserved, and every feed domain that does not run switches, so that its entries and modes become the snapshot's, while the running domains keep theirs (R95 to R101, R112). A refused cue's outcome is written and CUE REFUSED recorded, a refused failsafe request records FAILSAFE REFUSED, and a refused command records no fault (R112, R113). -/
def Obligations.ValidationRefusesOrAccepts : Prop :=
  ∀ (r : Requester) (s : State),
    let p := snapshotFor r s
    let guarded := (∃ x, destGuarded s.guards x = true ∧ p.entries.get x ≠ s.active.entries.get x) ∨
      ∃ q, quadGuarded s.guards q = true ∧ p.modes.get q ≠ s.active.modes.get q
    let t := validate r s
    let told (o : CueOutcome) : Prop := match r with
      | .command _ => t.log = s.log ∧ t.cues = s.cues
      | .cue c => t.log = (report .cueRefused (.cue c) s).log ∧ t.cues = s.cues.set c { s.cues.get c with outcome := o }
      | .failsafe => t.log = (report .failsafeRefused (.management s.mgmt.controlFeed) s).log ∧ t.cues = s.cues
    (match r with
      | .command b => p = stagingOf s b
      | .cue c => p = stagingOf s (s.cues.get c).bank
      | .failsafe =>
        (∀ x, p.entries.get x = if destGuarded s.guards x then s.active.entries.get x else s.failsafe.entries.get x) ∧
        ∀ q, p.modes.get q = if quadGuarded s.guards q then s.active.modes.get q else s.failsafe.modes.get q) ∧
    (r ≠ .failsafe → guarded → t.ce = { s.ce with lastSource := some r, lastResult := .refusedGuarded } ∧
      t.active = s.active ∧ t.tpt = s.tpt ∧ told .refusedGuarded) ∧
    (r = .failsafe ∨ ¬guarded → 64 < (unionPairs p s).length →
      t.ce = { s.ce with lastSource := some r, lastResult := .refusedTableFull } ∧
        t.active = s.active ∧ t.tpt = s.tpt ∧ told .refusedTableFull) ∧
    (r = .failsafe ∨ ¬guarded → (unionPairs p s).length ≤ 64 →
      let held : Cue := match r with
        | .cue c => s.cues.get c
        | .command _ | .failsafe => Cue.start
      let k : InFlight := ⟨p, r, held.fireLateness, held.framesWaited, held.dueMark, Table.fill 9 false,
        ((bankPairs p).dedup.filter fun pr => pr ∉ heldPairs s.tpt).length⟩
      t = walk (List.finRange 8) switchIfStopped
        ((s.setTpt (reserveFor p s.tpt)).setCe { s.ce with inFlight := some k }) ∧
      t.ce = { s.ce with inFlight := some { k with switched := Table.tab 9 fun d => !domainRunning s d } } ∧
      (∀ x, t.active.entries.get x =
        if domainRunning s (destDomain x) then s.active.entries.get x else p.entries.get x) ∧
      (∀ q, t.active.modes.get q = if domainRunning s (quadDomain q) then s.active.modes.get q else p.modes.get q) ∧
      (∀ i, let tp := (reserveFor p s.tpt).get i
        domainRunning s tp.domain = true → t.tpt.get i = tp) ∧
      t.log = s.log ∧ t.cues = s.cues ∧ t.mgmt = s.mgmt)

/-- Completion: the reserved marks are cleared, records without references become FREE and the others stay as they are, the commit count rises and the result is DONE; with nothing waiting the CE is IDLE (R106). A COMMIT command is answered DONE with its four words, a failsafe commit gives no answer and no fault, and a cue has its outcome (R106, R112, R115). What waits is then taken: requests are validated in turn, a cue IDLE when it leaves the order, until one is accepted or none is left (R96, R111). -/
def Obligations.CompletionFreesRecords : Prop :=
  (∀ (c : InFlight) (s : State), ∃ u : State, completeCommit c s = takeWaiting s.ce.waiting u ∧ u.active = s.active ∧
    u.ce = { s.ce with
      inFlight := none, commitCount := s.ce.commitCount + 1, lastSource := some c.requester, lastResult := .done } ∧
    ∀ i, u.tpt.get i = { s.tpt.get i with
      reserved := false, state := if (s.tpt.get i).references = 0 then .free else (s.tpt.get i).state }) ∧
  (∀ (r : Requester) (rest : List Requester) (s : State),
    let left := s.setCe { s.ce with waiting := rest }
    let v := validate r (match r with
      | .cue c => left.setCue c { s.cues.get c with state := .idle }
      | .command _ | .failsafe => left)
    takeWaiting [] s = s ∧ (v.ce.inFlight ≠ none → takeWaiting (r :: rest) s = v) ∧
      (v.ce.inFlight = none → takeWaiting (r :: rest) s = takeWaiting rest v)) ∧
  ∀ (c : InFlight) (s : State), s.ce.waiting = [] →
    let t := completeCommit c s
    t.ce = { s.ce with
      inFlight := none, commitCount := s.ce.commitCount + 1, lastSource := some c.requester, lastResult := .done } ∧
    (∀ i, t.tpt.get i = { s.tpt.get i with
      reserved := false, state := if (s.tpt.get i).references = 0 then .free else (s.tpt.get i).state }) ∧
    t.active = s.active ∧
    (∀ b q rest, c.requester = .command b → s.mgmt.queue = q :: rest → s.mgmt.discard = false →
      t.log = s.log ∧ t.cues = s.cues ∧ t.mgmt = { s.mgmt with
        queue := rest, cx := .idle, answers := s.mgmt.answers ++ [⟨q.tag, q.code, .done,
          [numWord (stagingCode b), s.ce.commitCount + 1, numWord c.allocated,
            numWord (t.tpt.cells.filter fun tp => tp.state != .free).length]⟩] }) ∧
    (c.requester = .failsafe → t.mgmt = s.mgmt ∧ t.log = s.log ∧ t.cues = s.cues) ∧
    ∀ i, c.requester = .cue i →
      (c.fireLateness = 0 → c.dueMark = false → (t.cues.get i).outcome = .done ∧ t.log = s.log) ∧
      (c.fireLateness ≠ 0 ∨ c.dueMark = true →
        (t.cues.get i).outcome = .late (min 65535 (c.fireLateness + c.framesWaited)) ∧
          t.log.tells .cueLate (.cue i) = true)

/-- A stamp against a cue: its lateness counts frames of the day from the label, whose frames field is taken as R - 1 when it is R or more; an ARMED cue of the feed fires up to R - 1 frames late, and no other cue moves (R109, R110). -/
def Obligations.StampFiresCue : Prop :=
  ∀ (f : Feed) (rate : Nat) (stamp : Stamp) (c : CueNo) (s : State), 0 < rate → stamp.inRange rate = true →
    let q := s.cues.get c
    q.label.hours < 24 → q.label.minutes < 60 → q.label.seconds < 60 →
    let i := ((stamp.hours * 60 + stamp.minutes) * 60 + stamp.seconds) * rate + stamp.frames
    let k := ((q.label.hours * 60 + q.label.minutes) * 60 + q.label.seconds) * rate +
      (if rate ≤ q.label.frames then rate - 1 else q.label.frames)
    (lateness rate stamp q.label : Int) = ((i : Int) - k) % (86400 * rate) ∧
    (q.state = .armed → q.feed = f → lateness rate stamp q.label < rate →
      s.ce.inFlight.isSome = true →
      evaluateCue f rate stamp c s = (s.setCue c { q with
        state := .due, fireLateness := lateness rate stamp q.label, framesWaited := 0, dueMark := true }).setCe
          { s.ce with waiting := s.ce.waiting ++ [.cue c] }) ∧
    (q.state = .armed → q.feed = f → lateness rate stamp q.label < rate → s.ce.inFlight = none →
      evaluateCue f rate stamp c s = validate (.cue c) (s.setCue c { q with
        state := .idle, fireLateness := lateness rate stamp q.label, framesWaited := 0, dueMark := false })) ∧
    (q.state ≠ .armed ∨ q.feed ≠ f ∨ rate ≤ lateness rate stamp q.label → evaluateCue f rate stamp c s = s)

/-- COMMIT: while a commit is in flight its request waits and the command stays in flight; otherwise it is validated at once, and refused with the words of R115 or put in flight, by the validation of ValidationRefusesOrAccepts in either case (R96 to R101, R115, R164). -/
def Obligations.CommitCommandMakesRequest : Prop :=
  ∀ (tag : Byte) (b : Staging) (s : State), s.ready = true →
    let code := numWord (stagingCode b)
    let c : Command := ⟨tag, 24, [code]⟩
    let p := stagingOf s b
    let dests := (List.finRange 144).filter fun x => destGuarded s.guards x && p.entries.get x != s.active.entries.get x
    let quads := (List.finRange 32).filter fun q => quadGuarded s.guards q && p.modes.get q != s.active.modes.get q
    let after := exec (.commit tag [code]) s
    let refused (r : CommitResult) (v : Verdict) (words : List Word) := Host.Outcome.next (ρ := Refusal) (φ := Fault)
      (((restartTimer s).setCe { s.ce with lastSource := some (.command b), lastResult := r }).answering tag 24 v words)
    (s.ce.inFlight.isSome = true →
      after = .next ((s.judging c).setCe { s.ce with waiting := s.ce.waiting ++ [.command b] })) ∧
    (s.ce.inFlight = none → after = .next (validate (.command b) (s.judging c))) ∧
    (s.ce.inFlight = none → dests ≠ [] ∨ quads ≠ [] → after = refused .refusedGuarded .refusedGuarded
      [code, dests.head?.elim 255 fun x => numWord x.val, quads.head?.elim 255 fun q => numWord q.val]) ∧
    (s.ce.inFlight = none → dests = [] → quads = [] → 64 < (unionPairs p s).length →
      after = refused .refusedTableFull .refusedTableFull
        [code, numWord (unionPairs p s).length, numWord (s.tpt.cells.filter fun tp => tp.state != .free).length]) ∧
    (s.ce.inFlight = none → dests = [] → quads = [] → (unionPairs p s).length ≤ 64 → ∃ t k, after = .next t ∧
      t.mgmt.queue = [c] ∧ t.mgmt.cx = .executing ∧ t.mgmt.answers = s.mgmt.answers ∧ t.ce.inFlight = some k ∧
      k.snapshot = p ∧ k.requester = .command b ∧ t.ce.commitCount = s.ce.commitCount) ∧
    ∀ w : Word, w ≠ 1 → w ≠ 2 →
      exec (.commit tag [w]) s = .next ((restartTimer s).answering tag 24 .refusedArgument [])

/-- ARM CUE arms a cue afresh, DISARM CUE makes it IDLE, each taking its request out of the waiting order and leaving its last outcome; READ CUES reports both; and the forms they refuse (R114, R116 to R118). The codes of the states and outcomes of a cue (R114). -/
def Obligations.CueCommands : Prop :=
  ([.idle, .armed, .due].map cueStateCode = [0, 1, 2] ∧
    ∀ n, [.none, .done, .late n, .refusedGuarded, .refusedTableFull].map cueOutcomeCode = [0, 1, 2, 3, 4]) ∧
  ∀ (tag : Byte) (s : State), s.ready = true →
    let words (q : Cue) : List Word :=
      [cueStateCode q.state, numWord (stagingCode q.bank), numWord q.feed.val, numWord q.label.hours, numWord q.label.minutes,
        numWord q.label.seconds, numWord q.label.frames, cueOutcomeCode q.outcome,
        if q.state = .due then numWord q.framesWaited else
          match q.outcome with
          | .late n => numWord n
          | .none | .done | .refusedGuarded | .refusedTableFull => 0]
    let without (c : CueNo) (q : Cue) : State :=
      ((restartTimer s).setCe { s.ce with waiting := s.ce.waiting.filter fun r => r != .cue c }).setCue c q
    (∀ (c : CueNo) (b : Staging) (f : Feed) (h m sec fr : Nat), h < 24 → m < 60 → sec < 60 → fr < 60 →
      let q : Cue := ⟨.armed, b, f, ⟨h, m, sec, fr⟩, 0, 0, false, (s.cues.get c).outcome⟩
      exec (.armCue tag [numWord c.val, numWord (stagingCode b), numWord f.val, numWord h, numWord m, numWord sec, numWord fr])
        s = .next ((without c q).answering tag 25 .done (words q))) ∧
    (∀ args : List Word, args.length ≤ 29 → args.length ≠ 7 → exec (.armCue tag args) s =
      .next ((restartTimer s).answering tag 25 .refusedArgument [])) ∧
    (∀ args : List Word, args.length ≤ 29 → args.length ≠ 1 → exec (.disarmCue tag args) s =
      .next ((restartTimer s).answering tag 26 .refusedArgument [])) ∧
    (∀ args : List Word, args.length ≤ 29 → args.length ≠ 0 → exec (.readCues tag args) s =
      .next ((restartTimer s).answering tag 27 .refusedArgument [])) ∧
    (∀ a b f h m sec fr : Word, 2 ≤ a.toNat ∨ (b ≠ 1 ∧ b ≠ 2) ∨ 8 ≤ f.toNat ∨ 24 ≤ h.toNat ∨ 60 ≤ m.toNat ∨
        60 ≤ sec.toNat ∨ 60 ≤ fr.toNat →
      exec (.armCue tag [a, b, f, h, m, sec, fr]) s = .next ((restartTimer s).answering tag 25 .refusedArgument [])) ∧
    (∀ c : CueNo, let q : Cue := { s.cues.get c with state := .idle }
      exec (.disarmCue tag [numWord c.val]) s = .next ((without c q).answering tag 26 .done (words q))) ∧
    (∀ a : Word, 2 ≤ a.toNat →
      exec (.disarmCue tag [a]) s = .next ((restartTimer s).answering tag 26 .refusedArgument [])) ∧
    exec (.readCues tag []) s =
      .next ((restartTimer s).answering tag 27 .done (words (s.cues.get 0) ++ words (s.cues.get 1)))

/-! ## The Fault Log -/

/-- A fault is collapsed into the record it has, appended with the domain-8 frame count and a repeat count of 0, raising a notice condition, or lost with overflow set, and the log keeps its form (R155, R157). -/
def Obligations.FaultIsCollapsedAppendedOrLost : Prop :=
  ∀ (reason : Reason) (src : FaultSource) (s : State),
    let l := s.log
    let t := report reason src s
    let present := l.records.any fun r => r.reason == reason && r.source == src
    let new : FaultRecord := ⟨reason, src, s.ru.frameCount, 0⟩
    (present = true → t = s.setLog { l with records := l.records.map fun r =>
      if r.reason = reason ∧ r.source = src then { r with repeats := min 255 (r.repeats + 1) } else r }) ∧
    (present = false → l.records.length < 8 →
      t.log.records = l.records ++ [new] ∧ t.log.overflow = l.overflow ∧ t.log.masked = l.masked ∧
        (l.masked = true ∨ s.mgmt.notice ≠ none → t.log.pending = true ∧ t.mgmt = s.mgmt) ∧
        (l.masked = false → s.mgmt.notice = none → t.log.pending = l.pending ∧
          t.mgmt = { s.mgmt with notice := some ⟨reason, src, l.records.length + 1⟩ })) ∧
    (present = false → 8 ≤ l.records.length → t = s.setLog { l with overflow := true }) ∧
    (l.wf = true → t.log.wf = true)

/-- READ FAULTS reports the log and up to four records and then clears pending; CLEAR FAULTS removes one record or all, the others keeping their order, and clears overflow and pending when the log is left empty (R159, R160). -/
def Obligations.ReadAndClearFaults : Prop :=
  ∀ (tag : Byte) (s : State), s.ready = true →
    let l := s.log
    let t := restartTimer s
    (∀ a b : Word,
      let found := (l.records.drop (a.toNat - 1)).take b.toNat
      let fits := 1 ≤ a.toNat ∧ a.toNat ≤ 8 ∧ 1 ≤ b.toNat ∧ b.toNat ≤ 4
      (fits → exec (.readFaults tag [a, b]) s = .next ((t.setLog { l with pending := false }).answering tag 48 .done
        ([numWord l.records.length, flagWord l.overflow, flagWord l.masked, flagWord l.pending, a, numWord found.length] ++
          found.flatMap fun r =>
            [BitVec.ofNat 8 (reasonCode r.reason) ++ BitVec.ofNat 8 (sourceKind r.source), numWord (sourceIndex r.source),
              numWord r.repeats, r.firstStamp.extractLsb' 16 16, r.firstStamp.extractLsb' 0 16]))) ∧
      (¬fits → exec (.readFaults tag [a, b]) s = .next (t.answering tag 48 .refusedArgument []))) ∧
    (∀ args : List Word, args.length ≤ 29 → args.length ≠ 2 → exec (.readFaults tag args) s =
      .next (t.answering tag 48 .refusedArgument [])) ∧
    (∀ args : List Word, args.length ≤ 29 → args.length ≠ 1 → exec (.clearFaults tag args) s =
      .next (t.answering tag 49 .refusedArgument [])) ∧
    ∀ a : Word,
      let kept := if a = 0 then [] else l.records.eraseIdx (a.toNat - 1)
      (a.toNat ≤ 8 → exec (.clearFaults tag [a]) s = .next ((t.setLog { l with
          records := kept
          overflow := if kept = [] then false else l.overflow
          pending := if kept = [] then false else l.pending }).answering tag 49 .done
        [numWord (l.records.length - kept.length), numWord kept.length])) ∧
      (8 < a.toNat → exec (.clearFaults tag [a]) s = .next (t.answering tag 49 .refusedArgument []))

/-- SET NOTICES takes the mask, or leaves it, and with pending set, the mask UNMASKED and no notice waiting places a notice for the newest record and clears pending (R161). A notice that leaves the AQ brings one for the newest record when pending is set and the mask is UNMASKED (R158). -/
def Obligations.NoticesFollowMask : Prop :=
  (∀ (tag : Byte) (s : State), s.ready = true →
    let after (masked : Bool) : State :=
      let t := (restartTimer s).setLog { s.log with masked := masked }
      match s.log.records.getLast? with
      | some r =>
        if s.log.pending = true ∧ masked = false ∧ s.mgmt.notice = none then
          (t.setLog { s.log with masked := masked, pending := false }).setMgmt
            { t.mgmt with notice := some ⟨r.reason, r.source, s.log.records.length⟩ }
        else t
      | none => t
    let answered (masked : Bool) := Host.Outcome.next (ρ := Refusal) (φ := Fault) ((after masked).answering tag 50 .done
      [flagWord masked, flagWord (after masked).log.pending, numWord s.log.records.length])
    exec (.setNotices tag []) s = answered s.log.masked ∧
    (∀ m : Bool, exec (.setNotices tag [flagWord m]) s = answered m) ∧
    (∀ args : List Word, args.length ≤ 29 → 2 ≤ args.length → exec (.setNotices tag args) s =
      .next ((restartTimer s).answering tag 50 .refusedArgument [])) ∧
    ∀ w : Word, 2 ≤ w.toNat →
      exec (.setNotices tag [w]) s = .next ((restartTimer s).answering tag 50 .refusedArgument [])) ∧
  (∀ (f : Feed) (n : Notice) (s : State), (s.fr.get f).place = none → s.mgmt.answerFeed = f → s.mgmt.notice = some n →
    (∀ r, s.log.records.getLast? = some r → s.log.pending = true → s.log.masked = false →
      drainQueue f s = (s.setMgmt { s.mgmt with
        notice := some ⟨r.reason, r.source, s.log.records.length⟩ }).setLog { s.log with pending := false }) ∧
    (s.log.pending = false ∨ s.log.masked = true → drainQueue f s = s.setMgmt { s.mgmt with notice := none }))

/-! ## Management: the queue and the executor -/

/-- A code that stands in no row of the table completes at once with outcome UNKNOWN COMMAND and no result words (R164); a command of the table with another number of argument words than it takes is refused with REFUSED ARGUMENT (R166, R174). -/
def Obligations.CodesAndWordCountsJudged : Prop :=
  (∀ (code tag : Byte) (args : List Word) (s : State), s.ready = true → args.length ≤ 29 → code ∉ tableCodes →
    exec (.unknownCommand code tag args) s = .next ((restartTimer s).answering tag code .unknownCommand [])) ∧
  (∀ (tag : Byte) (args : List Word) (s : State), s.ready = true → args.length ≤ 29 →
    let refused (code : Byte) := Host.Outcome.next (ρ := Refusal) (φ := Fault)
      ((restartTimer s).answering tag code .refusedArgument [])
    (args.length ≠ 4 → exec (.setFeed tag args) s = refused 1 ∧ exec (.setControl tag args) s = refused 56) ∧
    (args.length ≠ 1 → exec (.readFeed tag args) s = refused 2 ∧ exec (.setReference tag args) s = refused 3 ∧
      exec (.commit tag args) s = refused 24 ∧ exec (.disarmCue tag args) s = refused 26 ∧
      exec (.startPathCheck tag args) s = refused 40 ∧ exec (.clearFaults tag args) s = refused 49 ∧
      exec (.storeFailsafe tag args) s = refused 64) ∧
    (args.length = 0 ∨ 3 < args.length → exec (.flush tag args) s = refused 8) ∧
    (args.length ≠ 3 → exec (.readTakePoints tag args) s = refused 9 ∧
      exec (.writeQuadMode tag args) s = refused 17 ∧ exec (.readQuadModes tag args) s = refused 20) ∧
    (args.length ≠ 11 → exec (.writeEntry tag args) s = refused 16) ∧
    (args.length ≠ 2 → exec (.copyBank tag args) s = refused 18 ∧ exec (.readEntry tag args) s = refused 19 ∧
      exec (.readFaults tag args) s = refused 48) ∧
    (args.length ≠ 5 → exec (.setGuard tag args) s = refused 21) ∧
    (args.length ≠ 0 → exec (.readGuards tag args) s = refused 22 ∧ exec (.readCues tag args) s = refused 27 ∧
      exec (.readDevice tag args) s = refused 57 ∧ exec (.resetDevice tag args) s = refused 58) ∧
    (args.length ≠ 7 → exec (.armCue tag args) s = refused 25) ∧
    (args.length ≠ 0 → args.length ≠ 3 → exec (.setPresence tag args) s = refused 32) ∧
    (2 ≤ args.length → exec (.setMixerCheck tag args) s = refused 41 ∧ exec (.setNotices tag args) s = refused 50))

/-- A valid MANAGE packet joins the end of the queue when fewer than 32 commands and answers are held; with 32 held it is dropped and QUEUE OVERRUN is recorded (R163). A management row does the same and restarts the silence timer, while the CX is busy with a command in flight (R163, R164, R168). A CLEAR packet removes the commands not taken and empties the AQ; a command in flight runs on, and its answer is discarded; but for these and the silence timer's restart the part stands as it is (R167). The CX takes the command at the head while it is IDLE and one is queued, one after another, and none while it is not; a management row of a ready part is taken in the same way (R164). A command that completes leaves the head of the queue with its answer at the end of the AQ, or with none where it is to be discarded (R165). -/
def Obligations.QueueLimitAndClearPacket : Prop :=
  ((∀ (c : Command) (s : State),
    (s.mgmt.queue.length + s.mgmt.answers.length < 32 →
      offerCommand c s = s.setMgmt { s.mgmt with queue := s.mgmt.queue ++ [c] }) ∧
    (32 ≤ s.mgmt.queue.length + s.mgmt.answers.length →
      offerCommand c s = report .queueOverrun (.management s.mgmt.controlFeed) s)) ∧
  ∀ (i : Instr) (k : Command) (s : State), commandOf? i = some k → k.args.length ≤ 29 → s.awake = true →
    s.mgmt.cx ≠ .idle → exec i s = .next (offerCommand k (restartTimer s))) ∧
  (∀ s : State, finish s = cxRun s.mgmt.queue.length s ∧ ∀ n, (s.mgmt.cx ≠ .idle ∨ s.mgmt.queue = [] → cxRun n s = s) ∧
    ∀ c rest, s.mgmt.cx = .idle → s.mgmt.queue = c :: rest → cxRun (n + 1) s = cxRun n (takeCommand c s)) ∧
  (∀ (i : Instr) (k : Command) (s : State), commandOf? i = some k → k.args.length ≤ 29 → s.ready = true →
    exec i s = .next (takeCommand k ((restartTimer s).setMgmt { (restartTimer s).mgmt with queue := [k] }))) ∧
  (∀ (v : Verdict) (words : List Word) (c : Command) (rest : List Command) (s : State), s.mgmt.queue = c :: rest →
    s.mgmt.discard = false → answerCommand v words s = s.setMgmt { s.mgmt with
      queue := rest, cx := .idle, answers := s.mgmt.answers ++ [⟨c.tag, c.code, v, words⟩] }) ∧
  (∀ s : State, s.awake = true →
    let t := clearPacket s
    t = s.setMgmt { s.mgmt with
        queue := if s.mgmt.cx = .idle then [] else s.mgmt.queue.take 1
        discard := if s.mgmt.cx = .idle then s.mgmt.discard else true
        notice := none, answers := []
        timerRunning := (restartTimer s).mgmt.timerRunning, remaining := (restartTimer s).mgmt.remaining } ∧
      ∀ v words c rest, t.mgmt.queue = c :: rest → t.mgmt.discard = true →
        answerCommand v words t = t.setMgmt { t.mgmt with queue := rest, cx := .idle, discard := false })

/-- SET CONTROL takes the four settings and restarts the timer with the new silence time, and refuses a control feed whose FR is OFF or a word out of range (R170). The silence timer restarts from the silence time: OFF stops it, any other sets the seconds times R of the reference format; each domain-8 frame end lowers the remaining count of a RUNNING timer by one, and leaves a STOPPED one (R168). CONTROL_SILENCE: the expiry records CONTROL SILENCE, stops the timer, and with action FAILSAFE asks for a failsafe commit: validated at once where no commit is in flight, and else put at the end of the waiting order, or absorbed by a failsafe request that waits (R96, R169). That the expiry stands due as a RUNNING timer at 0 until its row takes it is the model's reading (log entry 6). The codes of silence times and actions (R170). -/
def Obligations.SetControlAndSilenceTimer : Prop :=
  ([.off, .s2, .s10, .s60].map silenceTimeCode = [0, 1, 2, 3] ∧ [.hold, .failsafe].map silenceActionCode = [0, 1]) ∧
  (∀ (tag : Byte) (control answer : Feed) (time : SilenceTime) (action : SilenceAction) (s : State), s.ready = true →
    let after := exec (.setControl tag
      [numWord control.val, numWord answer.val, silenceTimeCode time, silenceActionCode action]) s
    ((s.fr.get control).state = .off → after = .next ((restartTimer s).answering tag 56 .refusedArgument [])) ∧
    ((s.fr.get control).state ≠ .off →
      after = .next ((restartTimer (s.setMgmt { s.mgmt with
        controlFeed := control, answerFeed := answer, silenceTime := time, silenceAction := action })).answering tag 56 .done
          [numWord control.val, numWord answer.val, silenceTimeCode time, silenceActionCode action])) ∧
    ∀ a b c d : Word, 8 ≤ a.toNat ∨ 8 ≤ b.toNat ∨ 4 ≤ c.toNat ∨ 2 ≤ d.toNat →
      exec (.setControl tag [a, b, c, d]) s = .next ((restartTimer s).answering tag 56 .refusedArgument [])) ∧
  (∀ s : State, s.awake = true → restartTimer s = s.setMgmt { s.mgmt with
    timerRunning := decide (s.mgmt.silenceTime ≠ .off)
    remaining := (match s.mgmt.silenceTime with
      | .off => 0
      | .s2 => 2
      | .s10 => 10
      | .s60 => 60) * rateOf s.ru.format }) ∧
  (∀ (carried : Bool) (lines : LineSet) (s : State),
    let after := instantPart carried lines .silence s
    (s.mgmt.timerRunning = true → after = s.setMgmt { s.mgmt with remaining := s.mgmt.remaining - 1 }) ∧
    (s.mgmt.timerRunning = false → after = s)) ∧
  (∀ s : State, s.pins.powered = true → s.pins.startUpDue = false → s.mgmt.timerRunning = true → s.mgmt.remaining = 0 →
    s.mgmt.queue = [] ∨ s.mgmt.cx ≠ .idle →
    let s1 := report .controlSilence (.management s.mgmt.controlFeed)
      (s.setMgmt { s.mgmt with timerRunning := false, remaining := 0 })
    exec .controlSilence s = .next (match s.mgmt.silenceAction with
      | .hold => s1
      | .failsafe =>
        if s.ce.inFlight = none then validate .failsafe s1
        else if .failsafe ∈ s.ce.waiting then s1
        else s1.setCe { s.ce with waiting := s.ce.waiting ++ [.failsafe] }))

/-- READ DEVICE reports its 22 words; an accepted RESET DEVICE stops the executor without an answer and leaves a start-up due (R171, R172). That the command stays at the head of the queue until then is the model's choice (log entry 29). -/
def Obligations.ReadAndResetDevice : Prop :=
  ∀ (tag : Byte) (s : State), s.ready = true →
    let m := (restartTimer s).mgmt
    exec (.readDevice tag []) s = .next ((restartTimer s).answering tag 57 .done
      [numWord m.address,
        (match s.pins.cause with
          | .power => 0
          | .pin => 1
          | .command => 2),
        numWord m.controlFeed.val, numWord m.answerFeed.val, silenceTimeCode m.silenceTime,
        silenceActionCode m.silenceAction, if m.timerRunning then numWord m.remaining else 0, 1,
        numWord m.answers.length, flagWord m.notice.isSome, flagWord s.ce.inFlight.isSome,
        (match s.ce.inFlight with
          | none => 0
          | some c => numWord ((List.finRange 9).map fun d => if c.switched.get d then 2 ^ d.val else 0).sum),
        numWord s.ce.waiting.length, s.ce.commitCount,
        (match s.ce.lastSource with
          | none => 0
          | some (.command _) => 1
          | some (.cue c) => numWord (2 + c.val)
          | some .failsafe => 4),
        (match s.ce.lastResult with
          | .none => 0
          | .done => 1
          | .refusedGuarded => 2
          | .refusedTableFull => 3),
        ruStateCode s.ru.state, numWord s.ru.format.val, formatWord s.ru.pendingFormat,
        s.ru.frameCount.extractLsb' 16 16, s.ru.frameCount.extractLsb' 0 16,
        (match s.store.state with
          | .invalid => 0
          | .writing => 1
          | .valid => 2)]) ∧
    exec (.resetDevice tag []) s = .next (((restartTimer s).setMgmt
      { m with queue := [⟨tag, 58, []⟩], cx := .stopped }).setPins { s.pins with startUpDue := true })

/-! ## What every step keeps -/

/-- Every step keeps the Fault Log in form: at most 8 records, no two with the same reason and source, repeat counts of at most 255, and pending only with a record in the log (R155, R158). -/
def Obligations.FaultLogInvariant : Prop :=
  ∀ s t : State, s.log.wf = true → step s = .next t → t.log.wf = true

/-- Every step keeps the executor and the commit engine in form: at most 32 commands and answers are held; an IDLE CX has no command waiting and one that is not IDLE has its command at the head of the queue; it is EXECUTING exactly while one command is in flight at the CE or the PC; and nothing waits at an IDLE CE, with at most one failsafe request among what waits (R96, R163, R164). -/
def Obligations.ExecutorInvariant : Prop :=
  ∀ s t : State, s.mgmt.heldFits = true → s.mgmt.executorFits = true → s.flightFits = true → s.ce.orderFits = true →
    step s = .next t →
    t.mgmt.heldFits = true ∧ t.mgmt.executorFits = true ∧ t.flightFits = true ∧ t.ce.orderFits = true

/-- Every step keeps the rings and the takes in form: a ring stores the newest of the sets written, at most 8192, and a RUNNING record is on a ring of 96 sets or more, not ahead of it, with an occupancy of at most 2047 (R49, R50, R61, R62). -/
def Obligations.RingAndTakeInvariant : Prop :=
  ∀ s t : State, s.ringsFit = true → s.takesFit = true → step s = .next t → t.ringsFit = true ∧ t.takesFit = true

/-- Every step keeps the Take Point Table in form: no two records that are not FREE hold the same pair, each of them has a reference or is reserved, and a record is reserved only while a commit is in flight (R54, R56, R106). -/
def Obligations.RecordInvariant : Prop :=
  ∀ s t : State, pairsDistinct s.tpt = true → s.recordsUsed = true → step s = .next t →
    pairsDistinct t.tpt = true ∧ t.recordsUsed = true

/-- Every step keeps what the part stores in range: every entry of every bank, of a snapshot, of the store and of a ramp; every guard range; the settings of the Level Watch; and the store's state agrees with what it holds (R74, R91, R134, R173, R175). -/
def Obligations.BankAndSettingInvariant : Prop :=
  ∀ s t : State, s.banksFit = true → s.guardsFit = true → s.watch.settingsFit = true → s.store.fits = true →
    step s = .next t → t.banksFit = true ∧ t.guardsFit = true ∧ t.watch.settingsFit = true ∧ t.store.fits = true

/-- Every step keeps every FR in form: OFF exactly when disabled, a detected format exactly in a running state, quads UNKNOWN outside LOCKED, a domain's phase inside its cadence and 0 while it does not run; and the control feed is never OFF (R2, R7, R10, R17, R40, R170). -/
def Obligations.FeedInvariant : Prop :=
  ∀ s t : State, s.feedsFit = true → step s = .next t → t.feedsFit = true

/-- The state after reset has the form that every step keeps. -/
def Obligations.ResetIsInForm : Prop :=
  let s := State.reset
  s.log.wf = true ∧ s.mgmt.heldFits = true ∧ s.mgmt.executorFits = true ∧ s.flightFits = true ∧ s.ce.orderFits = true ∧
    s.ringsFit = true ∧ s.takesFit = true ∧ pairsDistinct s.tpt = true ∧ s.recordsUsed = true ∧ s.banksFit = true ∧
    s.guardsFit = true ∧ s.watch.settingsFit = true ∧ s.store.fits = true ∧ s.feedsFit = true
end

