-- ==== Sys2Proof/Laws/State.lean ====
section
/-! SUPPORT. What each update of the state gives back, field by field, so that no proof unfolds a record update. -/

namespace Sys2Proof.Machine.State

set_option Elab.async false

variable (s : State)

@[simp] theorem setFr_fields (f : Feed) (r : Receiver) :
    (s.setFr f r).pins = s.pins ∧ (s.setFr f r).lineIn = s.lineIn ∧ (s.setFr f r).lineOut = s.lineOut ∧
    (s.setFr f r).fr = s.fr.set f r ∧ (s.setFr f r).fmt = s.fmt ∧ (s.setFr f r).ru = s.ru ∧
    (s.setFr f r).rings = s.rings ∧ (s.setFr f r).tpt = s.tpt ∧ (s.setFr f r).active = s.active ∧
    (s.setFr f r).s0 = s.s0 ∧ (s.setFr f r).s1 = s.s1 ∧ (s.setFr f r).failsafe = s.failsafe ∧
    (s.setFr f r).guards = s.guards ∧ (s.setFr f r).ce = s.ce ∧ (s.setFr f r).cues = s.cues ∧
    (s.setFr f r).ramps = s.ramps ∧ (s.setFr f r).clips = s.clips ∧ (s.setFr f r).watch = s.watch ∧
    (s.setFr f r).cm = s.cm ∧ (s.setFr f r).pc = s.pc ∧ (s.setFr f r).log = s.log ∧
    (s.setFr f r).mgmt = s.mgmt ∧ (s.setFr f r).store = s.store ∧ (s.setFr f r).pending = s.pending :=
  ⟨rfl, rfl, rfl, rfl, rfl, rfl, rfl, rfl, rfl, rfl, rfl, rfl, rfl, rfl, rfl, rfl, rfl, rfl, rfl, rfl, rfl, rfl, rfl, rfl⟩

@[simp] theorem setFmt_fields (f : Feed) (o : Formatter) :
    (s.setFmt f o).pins = s.pins ∧ (s.setFmt f o).lineIn = s.lineIn ∧ (s.setFmt f o).lineOut = s.lineOut ∧
    (s.setFmt f o).fr = s.fr ∧ (s.setFmt f o).fmt = s.fmt.set f o ∧ (s.setFmt f o).ru = s.ru ∧
    (s.setFmt f o).rings = s.rings ∧ (s.setFmt f o).tpt = s.tpt ∧ (s.setFmt f o).active = s.active ∧
    (s.setFmt f o).s0 = s.s0 ∧ (s.setFmt f o).s1 = s.s1 ∧ (s.setFmt f o).failsafe = s.failsafe ∧
    (s.setFmt f o).guards = s.guards ∧ (s.setFmt f o).ce = s.ce ∧ (s.setFmt f o).cues = s.cues ∧
    (s.setFmt f o).ramps = s.ramps ∧ (s.setFmt f o).clips = s.clips ∧ (s.setFmt f o).watch = s.watch ∧
    (s.setFmt f o).cm = s.cm ∧ (s.setFmt f o).pc = s.pc ∧ (s.setFmt f o).log = s.log ∧
    (s.setFmt f o).mgmt = s.mgmt ∧ (s.setFmt f o).store = s.store ∧ (s.setFmt f o).pending = s.pending :=
  ⟨rfl, rfl, rfl, rfl, rfl, rfl, rfl, rfl, rfl, rfl, rfl, rfl, rfl, rfl, rfl, rfl, rfl, rfl, rfl, rfl, rfl, rfl, rfl, rfl⟩

@[simp] theorem setRu_fields (r : Reference) :
    (s.setRu r).pins = s.pins ∧ (s.setRu r).lineIn = s.lineIn ∧ (s.setRu r).lineOut = s.lineOut ∧
    (s.setRu r).fr = s.fr ∧ (s.setRu r).fmt = s.fmt ∧ (s.setRu r).ru = r ∧ (s.setRu r).rings = s.rings ∧
    (s.setRu r).tpt = s.tpt ∧ (s.setRu r).active = s.active ∧ (s.setRu r).s0 = s.s0 ∧ (s.setRu r).s1 = s.s1 ∧
    (s.setRu r).failsafe = s.failsafe ∧ (s.setRu r).guards = s.guards ∧ (s.setRu r).ce = s.ce ∧
    (s.setRu r).cues = s.cues ∧ (s.setRu r).ramps = s.ramps ∧ (s.setRu r).clips = s.clips ∧
    (s.setRu r).watch = s.watch ∧ (s.setRu r).cm = s.cm ∧ (s.setRu r).pc = s.pc ∧ (s.setRu r).log = s.log ∧
    (s.setRu r).mgmt = s.mgmt ∧ (s.setRu r).store = s.store ∧ (s.setRu r).pending = s.pending :=
  ⟨rfl, rfl, rfl, rfl, rfl, rfl, rfl, rfl, rfl, rfl, rfl, rfl, rfl, rfl, rfl, rfl, rfl, rfl, rfl, rfl, rfl, rfl, rfl, rfl⟩

@[simp] theorem setRing_fields (r : RingNo) (g : Ring) :
    (s.setRing r g).pins = s.pins ∧ (s.setRing r g).lineIn = s.lineIn ∧ (s.setRing r g).lineOut = s.lineOut ∧
    (s.setRing r g).fr = s.fr ∧ (s.setRing r g).fmt = s.fmt ∧ (s.setRing r g).ru = s.ru ∧
    (s.setRing r g).rings = s.rings.set r g ∧ (s.setRing r g).tpt = s.tpt ∧ (s.setRing r g).active = s.active ∧
    (s.setRing r g).s0 = s.s0 ∧ (s.setRing r g).s1 = s.s1 ∧ (s.setRing r g).failsafe = s.failsafe ∧
    (s.setRing r g).guards = s.guards ∧ (s.setRing r g).ce = s.ce ∧ (s.setRing r g).cues = s.cues ∧
    (s.setRing r g).ramps = s.ramps ∧ (s.setRing r g).clips = s.clips ∧ (s.setRing r g).watch = s.watch ∧
    (s.setRing r g).cm = s.cm ∧ (s.setRing r g).pc = s.pc ∧ (s.setRing r g).log = s.log ∧
    (s.setRing r g).mgmt = s.mgmt ∧ (s.setRing r g).store = s.store ∧ (s.setRing r g).pending = s.pending :=
  ⟨rfl, rfl, rfl, rfl, rfl, rfl, rfl, rfl, rfl, rfl, rfl, rfl, rfl, rfl, rfl, rfl, rfl, rfl, rfl, rfl, rfl, rfl, rfl, rfl⟩

@[simp] theorem setTpt_fields (t : Table 64 TakePoint) :
    (s.setTpt t).pins = s.pins ∧ (s.setTpt t).lineIn = s.lineIn ∧ (s.setTpt t).lineOut = s.lineOut ∧
    (s.setTpt t).fr = s.fr ∧ (s.setTpt t).fmt = s.fmt ∧ (s.setTpt t).ru = s.ru ∧ (s.setTpt t).rings = s.rings ∧
    (s.setTpt t).tpt = t ∧ (s.setTpt t).active = s.active ∧ (s.setTpt t).s0 = s.s0 ∧ (s.setTpt t).s1 = s.s1 ∧
    (s.setTpt t).failsafe = s.failsafe ∧ (s.setTpt t).guards = s.guards ∧ (s.setTpt t).ce = s.ce ∧
    (s.setTpt t).cues = s.cues ∧ (s.setTpt t).ramps = s.ramps ∧ (s.setTpt t).clips = s.clips ∧
    (s.setTpt t).watch = s.watch ∧ (s.setTpt t).cm = s.cm ∧ (s.setTpt t).pc = s.pc ∧ (s.setTpt t).log = s.log ∧
    (s.setTpt t).mgmt = s.mgmt ∧ (s.setTpt t).store = s.store ∧ (s.setTpt t).pending = s.pending :=
  ⟨rfl, rfl, rfl, rfl, rfl, rfl, rfl, rfl, rfl, rfl, rfl, rfl, rfl, rfl, rfl, rfl, rfl, rfl, rfl, rfl, rfl, rfl, rfl, rfl⟩

@[simp] theorem setCe_fields (e : Engine) :
    (s.setCe e).pins = s.pins ∧ (s.setCe e).lineIn = s.lineIn ∧ (s.setCe e).lineOut = s.lineOut ∧
    (s.setCe e).fr = s.fr ∧ (s.setCe e).fmt = s.fmt ∧ (s.setCe e).ru = s.ru ∧ (s.setCe e).rings = s.rings ∧
    (s.setCe e).tpt = s.tpt ∧ (s.setCe e).active = s.active ∧ (s.setCe e).s0 = s.s0 ∧ (s.setCe e).s1 = s.s1 ∧
    (s.setCe e).failsafe = s.failsafe ∧ (s.setCe e).guards = s.guards ∧ (s.setCe e).ce = e ∧
    (s.setCe e).cues = s.cues ∧ (s.setCe e).ramps = s.ramps ∧ (s.setCe e).clips = s.clips ∧
    (s.setCe e).watch = s.watch ∧ (s.setCe e).cm = s.cm ∧ (s.setCe e).pc = s.pc ∧ (s.setCe e).log = s.log ∧
    (s.setCe e).mgmt = s.mgmt ∧ (s.setCe e).store = s.store ∧ (s.setCe e).pending = s.pending :=
  ⟨rfl, rfl, rfl, rfl, rfl, rfl, rfl, rfl, rfl, rfl, rfl, rfl, rfl, rfl, rfl, rfl, rfl, rfl, rfl, rfl, rfl, rfl, rfl, rfl⟩

@[simp] theorem setCue_fields (c : CueNo) (q : Cue) :
    (s.setCue c q).pins = s.pins ∧ (s.setCue c q).lineIn = s.lineIn ∧ (s.setCue c q).lineOut = s.lineOut ∧
    (s.setCue c q).fr = s.fr ∧ (s.setCue c q).fmt = s.fmt ∧ (s.setCue c q).ru = s.ru ∧
    (s.setCue c q).rings = s.rings ∧ (s.setCue c q).tpt = s.tpt ∧ (s.setCue c q).active = s.active ∧
    (s.setCue c q).s0 = s.s0 ∧ (s.setCue c q).s1 = s.s1 ∧ (s.setCue c q).failsafe = s.failsafe ∧
    (s.setCue c q).guards = s.guards ∧ (s.setCue c q).ce = s.ce ∧ (s.setCue c q).cues = s.cues.set c q ∧
    (s.setCue c q).ramps = s.ramps ∧ (s.setCue c q).clips = s.clips ∧ (s.setCue c q).watch = s.watch ∧
    (s.setCue c q).cm = s.cm ∧ (s.setCue c q).pc = s.pc ∧ (s.setCue c q).log = s.log ∧
    (s.setCue c q).mgmt = s.mgmt ∧ (s.setCue c q).store = s.store ∧ (s.setCue c q).pending = s.pending :=
  ⟨rfl, rfl, rfl, rfl, rfl, rfl, rfl, rfl, rfl, rfl, rfl, rfl, rfl, rfl, rfl, rfl, rfl, rfl, rfl, rfl, rfl, rfl, rfl, rfl⟩

@[simp] theorem setRamp_fields (x : Dest) (r : Option Ramp) :
    (s.setRamp x r).pins = s.pins ∧ (s.setRamp x r).lineIn = s.lineIn ∧ (s.setRamp x r).lineOut = s.lineOut ∧
    (s.setRamp x r).fr = s.fr ∧ (s.setRamp x r).fmt = s.fmt ∧ (s.setRamp x r).ru = s.ru ∧
    (s.setRamp x r).rings = s.rings ∧ (s.setRamp x r).tpt = s.tpt ∧ (s.setRamp x r).active = s.active ∧
    (s.setRamp x r).s0 = s.s0 ∧ (s.setRamp x r).s1 = s.s1 ∧ (s.setRamp x r).failsafe = s.failsafe ∧
    (s.setRamp x r).guards = s.guards ∧ (s.setRamp x r).ce = s.ce ∧ (s.setRamp x r).cues = s.cues ∧
    (s.setRamp x r).ramps = s.ramps.set x r ∧ (s.setRamp x r).clips = s.clips ∧
    (s.setRamp x r).watch = s.watch ∧ (s.setRamp x r).cm = s.cm ∧ (s.setRamp x r).pc = s.pc ∧
    (s.setRamp x r).log = s.log ∧ (s.setRamp x r).mgmt = s.mgmt ∧ (s.setRamp x r).store = s.store ∧
    (s.setRamp x r).pending = s.pending :=
  ⟨rfl, rfl, rfl, rfl, rfl, rfl, rfl, rfl, rfl, rfl, rfl, rfl, rfl, rfl, rfl, rfl, rfl, rfl, rfl, rfl, rfl, rfl, rfl, rfl⟩

@[simp] theorem setClips_fields (c : Table 144 Bool) :
    (s.setClips c).pins = s.pins ∧ (s.setClips c).lineIn = s.lineIn ∧ (s.setClips c).lineOut = s.lineOut ∧
    (s.setClips c).fr = s.fr ∧ (s.setClips c).fmt = s.fmt ∧ (s.setClips c).ru = s.ru ∧
    (s.setClips c).rings = s.rings ∧ (s.setClips c).tpt = s.tpt ∧ (s.setClips c).active = s.active ∧
    (s.setClips c).s0 = s.s0 ∧ (s.setClips c).s1 = s.s1 ∧ (s.setClips c).failsafe = s.failsafe ∧
    (s.setClips c).guards = s.guards ∧ (s.setClips c).ce = s.ce ∧ (s.setClips c).cues = s.cues ∧
    (s.setClips c).ramps = s.ramps ∧ (s.setClips c).clips = c ∧ (s.setClips c).watch = s.watch ∧
    (s.setClips c).cm = s.cm ∧ (s.setClips c).pc = s.pc ∧ (s.setClips c).log = s.log ∧
    (s.setClips c).mgmt = s.mgmt ∧ (s.setClips c).store = s.store ∧ (s.setClips c).pending = s.pending :=
  ⟨rfl, rfl, rfl, rfl, rfl, rfl, rfl, rfl, rfl, rfl, rfl, rfl, rfl, rfl, rfl, rfl, rfl, rfl, rfl, rfl, rfl, rfl, rfl, rfl⟩

@[simp] theorem setTracks_fields (t : Table 144 WatchedTrack) :
    (s.setTracks t).pins = s.pins ∧ (s.setTracks t).lineIn = s.lineIn ∧ (s.setTracks t).lineOut = s.lineOut ∧
    (s.setTracks t).fr = s.fr ∧ (s.setTracks t).fmt = s.fmt ∧ (s.setTracks t).ru = s.ru ∧
    (s.setTracks t).rings = s.rings ∧ (s.setTracks t).tpt = s.tpt ∧ (s.setTracks t).active = s.active ∧
    (s.setTracks t).s0 = s.s0 ∧ (s.setTracks t).s1 = s.s1 ∧ (s.setTracks t).failsafe = s.failsafe ∧
    (s.setTracks t).guards = s.guards ∧ (s.setTracks t).ce = s.ce ∧ (s.setTracks t).cues = s.cues ∧
    (s.setTracks t).ramps = s.ramps ∧ (s.setTracks t).clips = s.clips ∧
    (s.setTracks t).watch = { s.watch with tracks := t } ∧ (s.setTracks t).cm = s.cm ∧
    (s.setTracks t).pc = s.pc ∧ (s.setTracks t).log = s.log ∧ (s.setTracks t).mgmt = s.mgmt ∧
    (s.setTracks t).store = s.store ∧ (s.setTracks t).pending = s.pending :=
  ⟨rfl, rfl, rfl, rfl, rfl, rfl, rfl, rfl, rfl, rfl, rfl, rfl, rfl, rfl, rfl, rfl, rfl, rfl, rfl, rfl, rfl, rfl, rfl, rfl⟩

@[simp] theorem setRound_fields (d : Domain) (r : Round) :
    (s.setRound d r).pins = s.pins ∧ (s.setRound d r).lineIn = s.lineIn ∧ (s.setRound d r).lineOut = s.lineOut ∧
    (s.setRound d r).fr = s.fr ∧ (s.setRound d r).fmt = s.fmt ∧ (s.setRound d r).ru = s.ru ∧
    (s.setRound d r).rings = s.rings ∧ (s.setRound d r).tpt = s.tpt ∧ (s.setRound d r).active = s.active ∧
    (s.setRound d r).s0 = s.s0 ∧ (s.setRound d r).s1 = s.s1 ∧ (s.setRound d r).failsafe = s.failsafe ∧
    (s.setRound d r).guards = s.guards ∧ (s.setRound d r).ce = s.ce ∧ (s.setRound d r).cues = s.cues ∧
    (s.setRound d r).ramps = s.ramps ∧ (s.setRound d r).clips = s.clips ∧ (s.setRound d r).watch = s.watch ∧
    (s.setRound d r).cm = { s.cm with rounds := s.cm.rounds.set d r } ∧ (s.setRound d r).pc = s.pc ∧
    (s.setRound d r).log = s.log ∧ (s.setRound d r).mgmt = s.mgmt ∧ (s.setRound d r).store = s.store ∧
    (s.setRound d r).pending = s.pending :=
  ⟨rfl, rfl, rfl, rfl, rfl, rfl, rfl, rfl, rfl, rfl, rfl, rfl, rfl, rfl, rfl, rfl, rfl, rfl, rfl, rfl, rfl, rfl, rfl, rfl⟩

@[simp] theorem setPc_fields (p : PathChecker) :
    (s.setPc p).pins = s.pins ∧ (s.setPc p).lineIn = s.lineIn ∧ (s.setPc p).lineOut = s.lineOut ∧
    (s.setPc p).fr = s.fr ∧ (s.setPc p).fmt = s.fmt ∧ (s.setPc p).ru = s.ru ∧ (s.setPc p).rings = s.rings ∧
    (s.setPc p).tpt = s.tpt ∧ (s.setPc p).active = s.active ∧ (s.setPc p).s0 = s.s0 ∧ (s.setPc p).s1 = s.s1 ∧
    (s.setPc p).failsafe = s.failsafe ∧ (s.setPc p).guards = s.guards ∧ (s.setPc p).ce = s.ce ∧
    (s.setPc p).cues = s.cues ∧ (s.setPc p).ramps = s.ramps ∧ (s.setPc p).clips = s.clips ∧
    (s.setPc p).watch = s.watch ∧ (s.setPc p).cm = s.cm ∧ (s.setPc p).pc = p ∧ (s.setPc p).log = s.log ∧
    (s.setPc p).mgmt = s.mgmt ∧ (s.setPc p).store = s.store ∧ (s.setPc p).pending = s.pending :=
  ⟨rfl, rfl, rfl, rfl, rfl, rfl, rfl, rfl, rfl, rfl, rfl, rfl, rfl, rfl, rfl, rfl, rfl, rfl, rfl, rfl, rfl, rfl, rfl, rfl⟩

@[simp] theorem setLog_fields (l : FaultLog) :
    (s.setLog l).pins = s.pins ∧ (s.setLog l).lineIn = s.lineIn ∧ (s.setLog l).lineOut = s.lineOut ∧
    (s.setLog l).fr = s.fr ∧ (s.setLog l).fmt = s.fmt ∧ (s.setLog l).ru = s.ru ∧ (s.setLog l).rings = s.rings ∧
    (s.setLog l).tpt = s.tpt ∧ (s.setLog l).active = s.active ∧ (s.setLog l).s0 = s.s0 ∧
    (s.setLog l).s1 = s.s1 ∧ (s.setLog l).failsafe = s.failsafe ∧ (s.setLog l).guards = s.guards ∧
    (s.setLog l).ce = s.ce ∧ (s.setLog l).cues = s.cues ∧ (s.setLog l).ramps = s.ramps ∧
    (s.setLog l).clips = s.clips ∧ (s.setLog l).watch = s.watch ∧ (s.setLog l).cm = s.cm ∧
    (s.setLog l).pc = s.pc ∧ (s.setLog l).log = l ∧ (s.setLog l).mgmt = s.mgmt ∧ (s.setLog l).store = s.store ∧
    (s.setLog l).pending = s.pending :=
  ⟨rfl, rfl, rfl, rfl, rfl, rfl, rfl, rfl, rfl, rfl, rfl, rfl, rfl, rfl, rfl, rfl, rfl, rfl, rfl, rfl, rfl, rfl, rfl, rfl⟩

@[simp] theorem setMgmt_fields (m : Management) :
    (s.setMgmt m).pins = s.pins ∧ (s.setMgmt m).lineIn = s.lineIn ∧ (s.setMgmt m).lineOut = s.lineOut ∧
    (s.setMgmt m).fr = s.fr ∧ (s.setMgmt m).fmt = s.fmt ∧ (s.setMgmt m).ru = s.ru ∧
    (s.setMgmt m).rings = s.rings ∧ (s.setMgmt m).tpt = s.tpt ∧ (s.setMgmt m).active = s.active ∧
    (s.setMgmt m).s0 = s.s0 ∧ (s.setMgmt m).s1 = s.s1 ∧ (s.setMgmt m).failsafe = s.failsafe ∧
    (s.setMgmt m).guards = s.guards ∧ (s.setMgmt m).ce = s.ce ∧ (s.setMgmt m).cues = s.cues ∧
    (s.setMgmt m).ramps = s.ramps ∧ (s.setMgmt m).clips = s.clips ∧ (s.setMgmt m).watch = s.watch ∧
    (s.setMgmt m).cm = s.cm ∧ (s.setMgmt m).pc = s.pc ∧ (s.setMgmt m).log = s.log ∧ (s.setMgmt m).mgmt = m ∧
    (s.setMgmt m).store = s.store ∧ (s.setMgmt m).pending = s.pending :=
  ⟨rfl, rfl, rfl, rfl, rfl, rfl, rfl, rfl, rfl, rfl, rfl, rfl, rfl, rfl, rfl, rfl, rfl, rfl, rfl, rfl, rfl, rfl, rfl, rfl⟩

@[simp] theorem setPins_fields (p : Pins) :
    (s.setPins p).pins = p ∧ (s.setPins p).lineIn = s.lineIn ∧ (s.setPins p).lineOut = s.lineOut ∧
    (s.setPins p).fr = s.fr ∧ (s.setPins p).fmt = s.fmt ∧ (s.setPins p).ru = s.ru ∧
    (s.setPins p).rings = s.rings ∧ (s.setPins p).tpt = s.tpt ∧ (s.setPins p).active = s.active ∧
    (s.setPins p).s0 = s.s0 ∧ (s.setPins p).s1 = s.s1 ∧ (s.setPins p).failsafe = s.failsafe ∧
    (s.setPins p).guards = s.guards ∧ (s.setPins p).ce = s.ce ∧ (s.setPins p).cues = s.cues ∧
    (s.setPins p).ramps = s.ramps ∧ (s.setPins p).clips = s.clips ∧ (s.setPins p).watch = s.watch ∧
    (s.setPins p).cm = s.cm ∧ (s.setPins p).pc = s.pc ∧ (s.setPins p).log = s.log ∧
    (s.setPins p).mgmt = s.mgmt ∧ (s.setPins p).store = s.store ∧ (s.setPins p).pending = s.pending :=
  ⟨rfl, rfl, rfl, rfl, rfl, rfl, rfl, rfl, rfl, rfl, rfl, rfl, rfl, rfl, rfl, rfl, rfl, rfl, rfl, rfl, rfl, rfl, rfl, rfl⟩

end Sys2Proof.Machine.State
end

