-- ==== Sys2Proof/Laws/Executor.lean ====
section
/-! SUPPORT. The executor on a part that is ready: a management row is queued, taken and answered within its step. -/

namespace Sys2Proof.Machine

set_option Elab.async false

theorem finish_of_queue_empty (s : State) (h : s.mgmt.queue = []) : finish s = s := by
  unfold finish
  rw [h]
  rfl

theorem cxRun_of_busy (n : Nat) (s : State) (h : s.mgmt.cx ≠ .idle) : cxRun n s = s := by
  cases n with
  | zero => rfl
  | succ n => simp [cxRun, h]

theorem finish_of_busy (s : State) (h : s.mgmt.cx ≠ .idle) : finish s = s := cxRun_of_busy _ s h

theorem settle_of_awake (s : State) (h : s.awake = true) : settle s = s := by
  simp only [State.awake, Bool.and_eq_true, Bool.not_eq_true'] at h
  obtain ⟨⟨_, h3⟩, h4⟩ := h
  simp [settle, takeExpiry, h3, h4]

theorem powered_of_awake (s : State) (h : s.awake = true) : s.pins.powered = true := by
  simp only [State.awake, Bool.and_eq_true, Bool.not_eq_true'] at h
  exact h.1.1.1

theorem notHeld_of_awake (s : State) (h : s.awake = true) : s.pins.resetHeld = false := by
  simp only [State.awake, Bool.and_eq_true, Bool.not_eq_true'] at h
  exact h.1.1.2

theorem event_of_awake (f : State → State) (s : State) (h : s.awake = true) : event f s = finish (f s) := by
  simp [event, powered_of_awake s h, settle_of_awake s h]

theorem feedEvent_of_awake (f : State → State) (s : State) (h : s.awake = true) : feedEvent f s = finish (f s) := by
  simp [feedEvent, event_of_awake _ s h, notHeld_of_awake s h]

/-- The silence timer restarted leaves everything but the timer as it was, when no expiry is due (R168). -/
theorem restartTimer_of_awake (s : State) (h : s.awake = true) :
    restartTimer s = s.setMgmt { s.mgmt with
      timerRunning := decide (s.mgmt.silenceTime ≠ .off)
      remaining := silenceSeconds s.mgmt.silenceTime * rateOf s.ru.format } := by
  simp only [State.awake, Bool.and_eq_true, Bool.not_eq_true'] at h
  have h4 := h.2
  unfold restartTimer
  simp only [takeExpiry, h4, Bool.false_eq_true, if_false]
  cases hs : s.mgmt.silenceTime <;> simp [silenceSeconds]

theorem ready_iff (s : State) :
    s.ready = true ↔ s.awake = true ∧ s.idleExecutor = true ∧ s.flightFits = true := by
  simp only [State.ready, Bool.and_eq_true, and_assoc]

theorem awake_of_ready {s : State} (h : s.ready = true) : s.awake = true := ((ready_iff s).mp h).1

theorem awake_of_quiet {s : State} (h : s.quiet = true) : s.awake = true := by
  simp only [State.quiet, Bool.and_eq_true] at h
  exact h.1.1

/-- Where no command waits to be taken, the CX takes none (R164). -/
theorem finish_of_noneWaits (s : State) (h : s.noneWaits = true) : finish s = s := by
  unfold State.noneWaits at h
  cases hc : s.mgmt.cx with
  | idle =>
    rw [hc] at h
    exact finish_of_queue_empty s (List.isEmpty_iff.1 h)
  | executing => exact finish_of_busy s (by rw [hc]; decide)
  | stopped => exact finish_of_busy s (by rw [hc]; decide)

theorem noneWaits_of_quiet {s : State} (h : s.quiet = true) : s.noneWaits = true := by
  simp only [State.quiet, Bool.and_eq_true] at h
  exact h.1.2

/-- A command accepted by a part that is ready is taken at once (R163, R164). -/
theorem acceptCommand_of_ready (c : Command) (s : State) (h : s.ready = true) :
    acceptCommand c s =
      match codeRow? c.code with
      | none => answerCommand .unknownCommand [] (s.judging c)
      | some r => cxRun 0 (act r c.args (s.judging c)).run := by
  obtain ⟨ha, hi, _⟩ := (ready_iff s).mp h
  simp only [State.idleExecutor, Bool.and_eq_true, Bool.not_eq_true', beq_iff_eq, List.isEmpty_iff,
    decide_eq_true_eq] at hi
  obtain ⟨⟨⟨h1, h2⟩, _⟩, h4⟩ := hi
  have hr := restartTimer_of_awake s ha
  have hq : (restartTimer s).mgmt.queue = [] := by rw [hr]; simpa using h2
  have hc : (restartTimer s).mgmt.cx = .idle := by rw [hr]; simpa using h1
  have hans : (restartTimer s).mgmt.answers.length < 32 := by rw [hr]; simpa [Config.heldLimit] using h4
  unfold acceptCommand finish
  have ho : offerCommand c (restartTimer s)
      = (restartTimer s).setMgmt { (restartTimer s).mgmt with queue := [c] } := by
    unfold offerCommand heldCount
    simp [hq, hans, Config.heldLimit]
  rw [ho]
  simp only [State.setMgmt_fields, List.length_cons, List.length_nil, Nat.zero_add]
  unfold cxRun
  simp only [State.setMgmt_fields, hc, if_true]
  have ht : execute ((restartTimer s).setMgmt { (restartTimer s).mgmt with queue := [c] })
      = s.judging c := rfl
  simp only [takeCommand]
  cases codeRow? c.code <;> rfl

theorem idleExecutor_iff (s : State) : s.idleExecutor = true ↔
    s.mgmt.cx = .idle ∧ s.mgmt.queue = [] ∧ s.mgmt.discard = false ∧ s.mgmt.answers.length < 32 := by
  unfold State.idleExecutor Config.heldLimit
  rw [Bool.and_eq_true, Bool.and_eq_true, Bool.and_eq_true, decide_eq_true_iff, beq_iff_eq, List.isEmpty_iff,
    Bool.not_eq_true']
  simp only [and_assoc]

/-- A management row of a ready part whose act answers: the answer joins the AQ and the CX is IDLE again (R164, R165). -/
theorem manageRow_of_answered {code tag : Byte} {args words : List Word} {s t : State} {r : CommandRow} {v : Verdict}
    (h : s.ready = true) (hn : args.length ≤ Config.maxArgs) (hr : codeRow? code = some r)
    (ha : act r args (s.judging ⟨tag, code, args⟩) = .answered v words t)
    (hq : t.mgmt.queue = [⟨tag, code, args⟩]) (hd : t.mgmt.discard = false) :
    manageRow code tag args s = t.setMgmt { t.mgmt with
      queue := [], cx := .idle, answers := t.mgmt.answers ++ [⟨tag, code, v, words⟩] } := by
  have hw := awake_of_ready h
  rw [manageRow, feedEvent_of_awake _ s hw, manage, if_pos hn, acceptCommand_of_ready _ s h]
  simp only [hr, ha, Act.run, cxRun, answerCommand, completedManagement, hq, hd, Bool.false_eq_true, if_false]
  exact finish_of_queue_empty _ rfl

/-- A management row of a ready part whose act stays in flight and leaves the CX busy: the command stands at the head of the queue (R164). -/
theorem manageRow_of_inFlight {code tag : Byte} {args : List Word} {s t : State} {r : CommandRow}
    (h : s.ready = true) (hn : args.length ≤ Config.maxArgs) (hr : codeRow? code = some r)
    (ha : act r args (s.judging ⟨tag, code, args⟩) = .inFlight t) (hb : t.mgmt.cx ≠ .idle) :
    manageRow code tag args s = t := by
  have hw := awake_of_ready h
  rw [manageRow, feedEvent_of_awake _ s hw, manage, if_pos hn, acceptCommand_of_ready _ s h]
  simp only [hr, ha, Act.run, cxRun]
  exact finish_of_busy t hb

/-- The discard flag of a ready part is clear while its command is judged. -/
theorem judging_fields (c : Command) (s : State) (h : s.ready = true) :
    (s.judging c).mgmt.queue = [c] ∧ (s.judging c).mgmt.discard = false := by
  have hw := awake_of_ready h
  have hi := ((ready_iff s).mp h).2.1
  rw [State.judging, restartTimer_of_awake s hw]
  exact ⟨rfl, ((idleExecutor_iff s).mp hi).2.2.1⟩

theorem setMgmt_setMgmt (s : State) (m m' : Management) : (s.setMgmt m).setMgmt m' = s.setMgmt m' := rfl

/-- An operation that neither reads nor changes Management. -/
def BesideMgmt (g : State → State) : Prop := ∀ x m, g (x.setMgmt m) = (g x).setMgmt m

theorem BesideMgmt.mgmt {g : State → State} (h : BesideMgmt g) (x : State) : (g x).mgmt = x.mgmt := by
  have : g x = (g x).setMgmt x.mgmt := (congrArg g (rfl : x = x.setMgmt x.mgmt)).trans (h x x.mgmt)
  rw [this]
  rfl

theorem BesideMgmt.id : BesideMgmt fun s => s := fun _ _ => rfl

theorem BesideMgmt.comp {f g : State → State} (hf : BesideMgmt f) (hg : BesideMgmt g) : BesideMgmt fun s => f (g s) :=
  fun x m => by
    show f (g (x.setMgmt m)) = _
    rw [hg x m, hf]

theorem BesideMgmt.walk {α : Type} {f : α → State → State} (h : ∀ a, BesideMgmt (f a)) (l : List α) :
    BesideMgmt (walk l f) := by
  induction l with
  | nil => exact BesideMgmt.id
  | cons a l ih =>
    intro x m
    show Machine.walk l f (f a (x.setMgmt m)) = _
    rw [h a x m, ih]
    rfl

/-- The management of a part that is ready, its timer restarted: no command in flight, none queued. -/
theorem restarted_fields {s : State} (h : s.ready = true) :
    (restartTimer s).mgmt.queue = [] ∧ (restartTimer s).mgmt.cx = .idle ∧ (restartTimer s).mgmt.discard = false := by
  have hw := awake_of_ready h
  have hi := (idleExecutor_iff s).mp ((ready_iff s).mp h).2.1
  rw [restartTimer_of_awake s hw]
  exact ⟨hi.2.1, hi.1, hi.2.2.1⟩

/-- A management row of a ready part whose act answers with an effect beside Management: the effect on the part whose timer has been restarted, and one more answer (R164, R165, R168). -/
theorem manageRow_answers {code tag : Byte} {args words : List Word} {s : State} {r : CommandRow} {v : Verdict}
    (g : State → State) (hg : BesideMgmt g) (h : s.ready = true) (hn : args.length ≤ Config.maxArgs)
    (hr : codeRow? code = some r)
    (ha : act r args (s.judging ⟨tag, code, args⟩) = .answered v words (g (s.judging ⟨tag, code, args⟩))) :
    manageRow code tag args s = (g (restartTimer s)).answering tag code v words := by
  obtain ⟨h1, h2, h3⟩ := restarted_fields h
  have hj := judging_fields ⟨tag, code, args⟩ s h
  have hm := hg.mgmt (s.judging ⟨tag, code, args⟩)
  rw [manageRow_of_answered h hn hr ha (by rw [hm]; exact hj.1) (by rw [hm]; exact hj.2), hm]
  unfold State.judging State.answering
  rw [hg, setMgmt_setMgmt, hg.mgmt]
  congr 1
  generalize (restartTimer s).mgmt = m at *
  cases m
  simp_all [State.setMgmt]

/-- A command that is refused by its words: nothing but the timer and the answer (R165). -/
theorem manageRow_refused {code tag : Byte} {args : List Word} {s : State} {r : CommandRow} (h : s.ready = true)
    (hn : args.length ≤ Config.maxArgs) (hr : codeRow? code = some r)
    (ha : ∀ x, act r args x = refusedArgument x) :
    manageRow code tag args s = (restartTimer s).answering tag code .refusedArgument [] :=
  manageRow_answers (fun x => x) BesideMgmt.id h hn hr (ha _)

/-- What restarting the timer of a part that is awake leaves as it was: everything but Management. -/
theorem restarted_of_awake {s : State} (h : s.awake = true) :
    ∃ m, restartTimer s = s.setMgmt m := ⟨_, restartTimer_of_awake s h⟩

/-- The state in which a command is judged is the part's state but for Management. -/
theorem judging_of_awake {s : State} (h : s.awake = true) (c : Command) : ∃ m, s.judging c = s.setMgmt m := by
  obtain ⟨m, hm⟩ := restarted_of_awake h
  unfold State.judging
  rw [hm]
  exact ⟨_, rfl⟩

end Sys2Proof.Machine
end

