-- ==== Sys2Proof/Laws/Walk.lean ====
section
/-! SUPPORT. What a walk keeps: a field that no step of it touches, and a property that every step of it keeps. -/

namespace Sys2Proof.Machine

set_option Elab.async false

/-- An operation leaves what `g` reads as it was. -/
def Keeps {β : Type} (g : State → β) (f : State → State) : Prop := ∀ s, g (f s) = g s

/-- An operation keeps a property. -/
def Holds (P : State → Prop) (f : State → State) : Prop := ∀ s, P s → P (f s)

theorem walk_nil {α : Type} (f : α → State → State) (s : State) : walk [] f s = s := rfl

theorem walk_cons {α : Type} (a : α) (l : List α) (f : α → State → State) (s : State) :
    walk (a :: l) f s = walk l f (f a s) := rfl

theorem walk_keeps {α β : Type} {g : State → β} {f : α → State → State} (l : List α) (h : ∀ a ∈ l, Keeps g (f a)) :
    Keeps g (walk l f) := by
  induction l with
  | nil => exact fun s => rfl
  | cons a l ih =>
    intro s
    rw [walk_cons, ih (fun b hb => h b (List.mem_cons_of_mem a hb)) (f a s), h a List.mem_cons_self s]

theorem walk_holds {α : Type} {P : State → Prop} {f : α → State → State} (l : List α) (h : ∀ a ∈ l, Holds P (f a)) :
    Holds P (walk l f) := by
  induction l with
  | nil => exact fun s hs => hs
  | cons a l ih =>
    intro s hs
    exact ih (fun b hb => h b (List.mem_cons_of_mem a hb)) (f a s) (h a List.mem_cons_self s hs)

/-- An order takes each of the parts that come about, as often as it comes, and no other. -/
theorem schedule_perm (order parts : List Part) : (schedule order parts).Perm parts := by
  induction order generalizing parts with
  | nil => exact List.Perm.refl _
  | cons p rest ih =>
    unfold schedule
    split
    · exact ((ih _).cons p).trans (List.perm_cons_erase ‹_›).symm
    · exact ih _

theorem Keeps.comp {β : Type} {g : State → β} {f1 f2 : State → State} (h1 : Keeps g f1) (h2 : Keeps g f2) :
    Keeps g fun s => f2 (f1 s) := fun s => (h2 (f1 s)).trans (h1 s)

theorem Holds.comp {P : State → Prop} {f1 f2 : State → State} (h1 : Holds P f1) (h2 : Holds P f2) :
    Holds P fun s => f2 (f1 s) := fun s hs => h2 (f1 s) (h1 s hs)

end Sys2Proof.Machine
end

