-- ==== Sys2Proof/Laws/Frame.lean ====
section
/-! SUPPORT. Frames: which blocks of the state an operation may change, said once for each operation, and how frames compose. -/

namespace Sys2Proof.Machine

set_option Elab.async false

/-- The settings that only management commands and start-up change: those of the MP (R162), of the LW (R134) and of the CM (R143). -/
def State.settings (s : State) : Nat × Feed × Feed × SilenceTime × SilenceAction × Nat × Nat × Bool :=
  (s.mgmt.address, s.mgmt.controlFeed, s.mgmt.answerFeed, s.mgmt.silenceTime, s.mgmt.silenceAction, s.watch.threshold,
    s.watch.frames, s.cm.inject)

/-- The blocks of the state that an operation may change; `settings` are the settings within mgmt, watch and cm. -/
structure Touch where
  pins : Bool := false
  lineIn : Bool := false
  lineOut : Bool := false
  fr : Bool := false
  fmt : Bool := false
  ru : Bool := false
  rings : Bool := false
  tpt : Bool := false
  active : Bool := false
  s0 : Bool := false
  s1 : Bool := false
  failsafe : Bool := false
  guards : Bool := false
  ce : Bool := false
  cues : Bool := false
  ramps : Bool := false
  clips : Bool := false
  watch : Bool := false
  cm : Bool := false
  pc : Bool := false
  log : Bool := false
  mgmt : Bool := false
  store : Bool := false
  pending : Bool := false
  settings : Bool := false

/-- Every block that a names b names. -/
def Touch.le (a b : Touch) : Bool :=
  (!a.pins || b.pins) && (!a.lineIn || b.lineIn) && (!a.lineOut || b.lineOut) && (!a.fr || b.fr) && (!a.fmt || b.fmt) && (!a.ru || b.ru) &&
    (!a.rings || b.rings) && (!a.tpt || b.tpt) && (!a.active || b.active) && (!a.s0 || b.s0) && (!a.s1 || b.s1) && (!a.failsafe || b.failsafe) &&
    (!a.guards || b.guards) && (!a.ce || b.ce) && (!a.cues || b.cues) && (!a.ramps || b.ramps) && (!a.clips || b.clips) && (!a.watch || b.watch) &&
    (!a.cm || b.cm) && (!a.pc || b.pc) && (!a.log || b.log) && (!a.mgmt || b.mgmt) && (!a.store || b.store) && (!a.pending || b.pending) &&
    (!a.settings || b.settings)

/-- From s to s' nothing changes but the blocks that t names. -/
structure Frame (t : Touch) (s s' : State) : Prop where
  pins : t.pins = false → s'.pins = s.pins
  lineIn : t.lineIn = false → s'.lineIn = s.lineIn
  lineOut : t.lineOut = false → s'.lineOut = s.lineOut
  fr : t.fr = false → s'.fr = s.fr
  fmt : t.fmt = false → s'.fmt = s.fmt
  ru : t.ru = false → s'.ru = s.ru
  rings : t.rings = false → s'.rings = s.rings
  tpt : t.tpt = false → s'.tpt = s.tpt
  active : t.active = false → s'.active = s.active
  s0 : t.s0 = false → s'.s0 = s.s0
  s1 : t.s1 = false → s'.s1 = s.s1
  failsafe : t.failsafe = false → s'.failsafe = s.failsafe
  guards : t.guards = false → s'.guards = s.guards
  ce : t.ce = false → s'.ce = s.ce
  cues : t.cues = false → s'.cues = s.cues
  ramps : t.ramps = false → s'.ramps = s.ramps
  clips : t.clips = false → s'.clips = s.clips
  watch : t.watch = false → s'.watch = s.watch
  cm : t.cm = false → s'.cm = s.cm
  pc : t.pc = false → s'.pc = s.pc
  log : t.log = false → s'.log = s.log
  mgmt : t.mgmt = false → s'.mgmt = s.mgmt
  store : t.store = false → s'.store = s.store
  pending : t.pending = false → s'.pending = s.pending
  settings : t.settings = false → s'.settings = s.settings

theorem Frame.refl (t : Touch) (s : State) : Frame t s s := by
  constructor <;> exact fun _ => rfl

theorem Frame.trans {t : Touch} {s s' s'' : State} (a : Frame t s s') (b : Frame t s' s'') : Frame t s s'' where
  pins h := (b.pins h).trans (a.pins h)
  lineIn h := (b.lineIn h).trans (a.lineIn h)
  lineOut h := (b.lineOut h).trans (a.lineOut h)
  fr h := (b.fr h).trans (a.fr h)
  fmt h := (b.fmt h).trans (a.fmt h)
  ru h := (b.ru h).trans (a.ru h)
  rings h := (b.rings h).trans (a.rings h)
  tpt h := (b.tpt h).trans (a.tpt h)
  active h := (b.active h).trans (a.active h)
  s0 h := (b.s0 h).trans (a.s0 h)
  s1 h := (b.s1 h).trans (a.s1 h)
  failsafe h := (b.failsafe h).trans (a.failsafe h)
  guards h := (b.guards h).trans (a.guards h)
  ce h := (b.ce h).trans (a.ce h)
  cues h := (b.cues h).trans (a.cues h)
  ramps h := (b.ramps h).trans (a.ramps h)
  clips h := (b.clips h).trans (a.clips h)
  watch h := (b.watch h).trans (a.watch h)
  cm h := (b.cm h).trans (a.cm h)
  pc h := (b.pc h).trans (a.pc h)
  log h := (b.log h).trans (a.log h)
  mgmt h := (b.mgmt h).trans (a.mgmt h)
  store h := (b.store h).trans (a.store h)
  pending h := (b.pending h).trans (a.pending h)
  settings h := (b.settings h).trans (a.settings h)

theorem Frame.mono {t u : Touch} {s s' : State} (a : Frame t s s') (h : t.le u = true := by decide) : Frame u s s' := by
  unfold Touch.le at h
  simp only [Bool.and_eq_true] at h
  have k : ∀ x y : Bool, (!x || y) = true → y = false → x = false := by decide
  constructor
  · exact fun e => a.pins (k _ _ h.1.1.1.1.1.1.1.1.1.1.1.1.1.1.1.1.1.1.1.1.1.1.1.1 e)
  · exact fun e => a.lineIn (k _ _ h.1.1.1.1.1.1.1.1.1.1.1.1.1.1.1.1.1.1.1.1.1.1.1.2 e)
  · exact fun e => a.lineOut (k _ _ h.1.1.1.1.1.1.1.1.1.1.1.1.1.1.1.1.1.1.1.1.1.1.2 e)
  · exact fun e => a.fr (k _ _ h.1.1.1.1.1.1.1.1.1.1.1.1.1.1.1.1.1.1.1.1.1.2 e)
  · exact fun e => a.fmt (k _ _ h.1.1.1.1.1.1.1.1.1.1.1.1.1.1.1.1.1.1.1.1.2 e)
  · exact fun e => a.ru (k _ _ h.1.1.1.1.1.1.1.1.1.1.1.1.1.1.1.1.1.1.1.2 e)
  · exact fun e => a.rings (k _ _ h.1.1.1.1.1.1.1.1.1.1.1.1.1.1.1.1.1.1.2 e)
  · exact fun e => a.tpt (k _ _ h.1.1.1.1.1.1.1.1.1.1.1.1.1.1.1.1.1.2 e)
  · exact fun e => a.active (k _ _ h.1.1.1.1.1.1.1.1.1.1.1.1.1.1.1.1.2 e)
  · exact fun e => a.s0 (k _ _ h.1.1.1.1.1.1.1.1.1.1.1.1.1.1.1.2 e)
  · exact fun e => a.s1 (k _ _ h.1.1.1.1.1.1.1.1.1.1.1.1.1.1.2 e)
  · exact fun e => a.failsafe (k _ _ h.1.1.1.1.1.1.1.1.1.1.1.1.1.2 e)
  · exact fun e => a.guards (k _ _ h.1.1.1.1.1.1.1.1.1.1.1.1.2 e)
  · exact fun e => a.ce (k _ _ h.1.1.1.1.1.1.1.1.1.1.1.2 e)
  · exact fun e => a.cues (k _ _ h.1.1.1.1.1.1.1.1.1.1.2 e)
  · exact fun e => a.ramps (k _ _ h.1.1.1.1.1.1.1.1.1.2 e)
  · exact fun e => a.clips (k _ _ h.1.1.1.1.1.1.1.1.2 e)
  · exact fun e => a.watch (k _ _ h.1.1.1.1.1.1.1.2 e)
  · exact fun e => a.cm (k _ _ h.1.1.1.1.1.1.2 e)
  · exact fun e => a.pc (k _ _ h.1.1.1.1.1.2 e)
  · exact fun e => a.log (k _ _ h.1.1.1.1.2 e)
  · exact fun e => a.mgmt (k _ _ h.1.1.1.2 e)
  · exact fun e => a.store (k _ _ h.1.1.2 e)
  · exact fun e => a.pending (k _ _ h.1.2 e)
  · exact fun e => a.settings (k _ _ h.2 e)

theorem Frame.walk {α : Type} {t : Touch} {f : α → State → State} (h : ∀ a s, Frame t s (f a s)) (l : List α) (s : State) :
    Frame t s (walk l f s) := by
  induction l generalizing s with
  | nil => exact Frame.refl t s
  | cons a l ih => exact (h a s).trans (ih (f a s))

theorem Frame.ite {t : Touch} {s a b : State} {c : Prop} [Decidable c] (ha : Frame t s a) (hb : Frame t s b) :
    Frame t s (if c then a else b) := by
  split
  · exact ha
  · exact hb

end Sys2Proof.Machine
end

