-- ==== Sys2Proof/Laws/Log.lean ====
section
/-! SUPPORT. The Fault Log: what taking a fault, a notice and a clearing can do, and that they keep the log in form. -/

namespace Sys2Proof.Machine

set_option Elab.async false

/-- The log after a fault has been taken, from the log, the waiting notice and the domain-8 frame count alone (R155, R157). -/
def reportedLog (reason : Reason) (src : FaultSource) (l : FaultLog) (waits : Bool) (stamp : BitVec 32) : FaultLog :=
  if l.records.any fun r => r.isFor reason src then
    { l with records := l.records.map fun r => if r.isFor reason src then r.collapse else r }
  else if l.records.length < Config.logSize then
    { l with records := l.records ++ [⟨reason, src, stamp, 0⟩], pending := l.pending || (l.masked || waits) }
  else { l with overflow := true }

/-- The notice that waits after a fault has been taken (R157). -/
def reportedNotice (reason : Reason) (src : FaultSource) (l : FaultLog) (n : Option Notice) : Option Notice :=
  if l.records.any fun r => r.isFor reason src then n
  else if l.records.length < Config.logSize then
    if l.masked || n.isSome then n else some ⟨reason, src, l.records.length + 1⟩
  else n

/-- Taking a fault changes the log and the waiting notice, and nothing else (R155, R157). -/
theorem report_eq (reason : Reason) (src : FaultSource) (s : State) :
    report reason src s = (s.setLog (reportedLog reason src s.log s.mgmt.notice.isSome s.ru.frameCount)).setMgmt
      { s.mgmt with notice := reportedNotice reason src s.log s.mgmt.notice } := by
  unfold report reportedLog reportedNotice
  by_cases h1 : s.log.records.any fun r => r.isFor reason src
  · simp only [h1, if_true]
    rfl
  · by_cases h2 : s.log.records.length < Config.logSize
    · simp only [h1, h2, if_true]
      unfold noticeCondition
      by_cases h3 : s.log.masked || s.mgmt.notice.isSome
      · have h3' : ((s.setLog { s.log with records := s.log.records ++ [⟨reason, src, s.ru.frameCount, 0⟩] }).log.masked ||
            (s.setLog { s.log with
              records := s.log.records ++ [⟨reason, src, s.ru.frameCount, 0⟩] }).mgmt.notice.isSome) = true := h3
        rw [if_pos h3', h3, Bool.or_true]
        rfl
      · have h3' : ¬((s.setLog { s.log with records := s.log.records ++ [⟨reason, src, s.ru.frameCount, 0⟩] }).log.masked ||
            (s.setLog { s.log with
              records := s.log.records ++ [⟨reason, src, s.ru.frameCount, 0⟩] }).mgmt.notice.isSome) = true := h3
        rw [if_neg h3', Bool.not_eq_true] at *
        rw [h3, Bool.or_false]
        simp [State.setLog, State.setMgmt, noticeFor]
    · simp only [h1, h2, if_false]
      rfl

variable (reason : Reason) (src : FaultSource) (s : State)

@[simp] theorem report_fields :
    (report reason src s).pins = s.pins ∧ (report reason src s).lineIn = s.lineIn ∧
    (report reason src s).lineOut = s.lineOut ∧ (report reason src s).fr = s.fr ∧
    (report reason src s).fmt = s.fmt ∧ (report reason src s).ru = s.ru ∧ (report reason src s).rings = s.rings ∧
    (report reason src s).tpt = s.tpt ∧ (report reason src s).active = s.active ∧ (report reason src s).s0 = s.s0 ∧
    (report reason src s).s1 = s.s1 ∧ (report reason src s).failsafe = s.failsafe ∧
    (report reason src s).guards = s.guards ∧ (report reason src s).ce = s.ce ∧
    (report reason src s).cues = s.cues ∧ (report reason src s).ramps = s.ramps ∧
    (report reason src s).clips = s.clips ∧ (report reason src s).watch = s.watch ∧
    (report reason src s).cm = s.cm ∧ (report reason src s).pc = s.pc ∧ (report reason src s).store = s.store ∧
    (report reason src s).pending = s.pending := by
  rw [report_eq]
  exact ⟨rfl, rfl, rfl, rfl, rfl, rfl, rfl, rfl, rfl, rfl, rfl, rfl, rfl, rfl, rfl, rfl, rfl, rfl, rfl, rfl, rfl, rfl⟩

theorem report_log :
    (report reason src s).log = reportedLog reason src s.log s.mgmt.notice.isSome s.ru.frameCount := by
  rw [report_eq]
  rfl

theorem report_mgmt :
    (report reason src s).mgmt = { s.mgmt with notice := reportedNotice reason src s.log s.mgmt.notice } := by
  rw [report_eq]
  rfl

/-- Two states with the same log, the same waiting notice and the same frame count take a fault alike. -/
theorem report_log_congr {s s' : State} (h1 : s.log = s'.log) (h2 : s.mgmt.notice = s'.mgmt.notice)
    (h3 : s.ru.frameCount = s'.ru.frameCount) : (report reason src s).log = (report reason src s').log := by
  rw [report_log, report_log, h1, h2, h3]

theorem isFor_iff (r : FaultRecord) : r.isFor reason src = true ↔ r.reason = reason ∧ r.source = src := by
  simp [FaultRecord.isFor]

theorem isFor_collapse (r : FaultRecord) (a : Reason) (b : FaultSource) : r.collapse.isFor a b = r.isFor a b := rfl

/-- A fault that has been taken is told of (R155). -/
theorem report_tells : (report reason src s).log.tells reason src = true := by
  rw [report_log]
  unfold reportedLog FaultLog.tells
  split
  · rename_i h
    rw [Bool.or_eq_true]
    right
    rw [List.any_eq_true] at h ⊢
    obtain ⟨r, hr, hf⟩ := h
    refine ⟨r.collapse, List.mem_map.mpr ⟨r, hr, by rw [if_pos hf]⟩, ?_⟩
    exact hf
  · split
    · rw [Bool.or_eq_true]
      right
      rw [List.any_eq_true]
      exact ⟨_, List.mem_append_right _ (List.mem_singleton_self _), by simp [FaultRecord.isFor]⟩
    · rfl

/-- What the log tells of it tells of after another fault (R155). -/
theorem report_tells_mono {a : Reason} {b : FaultSource} (h : s.log.tells a b = true) :
    (report reason src s).log.tells a b = true := by
  rw [report_log]
  unfold reportedLog
  unfold FaultLog.tells at *
  rw [Bool.or_eq_true] at h
  split
  · rw [Bool.or_eq_true]
    rcases h with h | h
    · exact Or.inl h
    · right
      rw [List.any_eq_true] at h ⊢
      obtain ⟨r, hr, hf⟩ := h
      refine ⟨_, List.mem_map.mpr ⟨r, hr, rfl⟩, ?_⟩
      split
      · exact hf
      · exact hf
  · split
    · rw [Bool.or_eq_true]
      rcases h with h | h
      · exact Or.inl h
      · right
        rw [List.any_append, h]
        rfl
    · rfl

/-! ## The form of the log -/

theorem FaultLog.wf_iff (l : FaultLog) : l.wf = true ↔
    l.records.length ≤ Config.logSize ∧ (l.records.map fun r => (r.reason, r.source)).Nodup ∧
      (∀ r ∈ l.records, r.repeats ≤ Config.byteMax) ∧ (l.pending = true → l.records ≠ []) := by
  unfold FaultLog.wf
  rw [Bool.and_eq_true, Bool.and_eq_true, Bool.and_eq_true, decide_eq_true_iff, decide_eq_true_iff, List.all_eq_true]
  simp only [decide_eq_true_eq, and_assoc]
  have : ((!l.pending || !l.records.isEmpty) = true) ↔ (l.pending = true → l.records ≠ []) := by
    cases l.pending <;> simp
  rw [this]

theorem reportedLog_wf {l : FaultLog} (waits : Bool) (stamp : BitVec 32) (h : l.wf = true) :
    (reportedLog reason src l waits stamp).wf = true := by
  rw [FaultLog.wf_iff] at h
  obtain ⟨h1, h2, h3, h4⟩ := h
  unfold reportedLog
  split
  · rename_i hp
    rw [FaultLog.wf_iff]
    refine ⟨by simpa using h1, ?_, ?_, ?_⟩
    · have : (l.records.map fun r => if r.isFor reason src = true then r.collapse else r).map
          (fun r => (r.reason, r.source)) = l.records.map fun r => (r.reason, r.source) := by
        rw [List.map_map]
        apply List.map_congr_left
        intro r _
        simp only [Function.comp]
        split <;> rfl
      rw [this]
      exact h2
    · intro r hr
      obtain ⟨r', hr', rfl⟩ := List.mem_map.mp hr
      split
      · exact Nat.min_le_left _ _
      · exact h3 r' hr'
    · intro hpend hnil
      exact h4 hpend (List.map_eq_nil_iff.mp hnil)
  · rename_i hp
    split
    · rename_i hl
      rw [FaultLog.wf_iff]
      refine ⟨?_, ?_, ?_, ?_⟩
      · simp only [List.length_append, List.length_singleton]
        omega
      · rw [List.map_append, List.nodup_append]
        refine ⟨h2, List.nodup_singleton _, ?_⟩
        intro a ha b hb hab
        rw [List.map_singleton, List.mem_singleton] at hb
        obtain ⟨r, hr, rfl⟩ := List.mem_map.mp ha
        rw [hb] at hab
        apply hp
        rw [List.any_eq_true]
        refine ⟨r, hr, (isFor_iff reason src r).mpr ?_⟩
        exact ⟨congrArg Prod.fst hab, congrArg Prod.snd hab⟩
      · intro r hr
        rcases List.mem_append.mp hr with hr | hr
        · exact h3 r hr
        · rw [List.mem_singleton.mp hr]
          exact Nat.zero_le _
      · intro _ hnil
        simp at hnil
    · rw [FaultLog.wf_iff]
      exact ⟨h1, h2, h3, h4⟩

theorem report_wf {s : State} (h : s.log.wf = true) : (report reason src s).log.wf = true := by
  rw [report_log]
  exact reportedLog_wf reason src _ _ h

/-- A notice for the newest record changes the waiting notice and pending, and nothing else (R158, R161). -/
theorem noticeForNewest_eq :
    ∃ n p, noticeForNewest s = (s.setLog { s.log with pending := p }).setMgmt { s.mgmt with notice := n } ∧
      (p = true → s.log.pending = true) := by
  unfold noticeForNewest
  split
  · split
    · exact ⟨_, _, rfl, fun h => absurd h (by simp)⟩
    · exact ⟨s.mgmt.notice, s.log.pending, rfl, id⟩
  · exact ⟨s.mgmt.notice, s.log.pending, rfl, id⟩

theorem wf_of_pending {l : FaultLog} {p : Bool} (h : l.wf = true) (hp : p = true → l.pending = true) :
    ({ l with pending := p } : FaultLog).wf = true := by
  rw [FaultLog.wf_iff] at h ⊢
  exact ⟨h.1, h.2.1, h.2.2.1, fun hh => h.2.2.2 (hp hh)⟩

theorem noticeForNewest_wf {s : State} (h : s.log.wf = true) : (noticeForNewest s).log.wf = true := by
  obtain ⟨n, p, he, hp⟩ := noticeForNewest_eq s
  rw [he]
  exact wf_of_pending h hp

end Sys2Proof.Machine
end

