-- ==== Sys2Proof/Laws/Frames.lean ====
section
/-! SUPPORT. The frame of each shared operation: the blocks it may change. The rules that move a block are its spec lemmas; these say that nothing else moves. -/

namespace Sys2Proof.Machine

set_option Elab.async false

variable (s : State)

theorem frame_setFr (f : Feed) (r : Receiver) : Frame { fr := true } s (s.setFr f r) :=
  ⟨fun _ => rfl, fun _ => rfl, fun _ => rfl, fun h => absurd h (by decide), fun _ => rfl, fun _ => rfl, fun _ => rfl, fun _ => rfl, fun _ => rfl, fun _ => rfl, fun _ => rfl, fun _ => rfl, fun _ => rfl, fun _ => rfl, fun _ => rfl, fun _ => rfl, fun _ => rfl, fun _ => rfl, fun _ => rfl, fun _ => rfl, fun _ => rfl, fun _ => rfl, fun _ => rfl, fun _ => rfl, fun _ => rfl⟩

theorem frame_setFmt (f : Feed) (o : Formatter) : Frame { fmt := true } s (s.setFmt f o) :=
  ⟨fun _ => rfl, fun _ => rfl, fun _ => rfl, fun _ => rfl, fun h => absurd h (by decide), fun _ => rfl, fun _ => rfl, fun _ => rfl, fun _ => rfl, fun _ => rfl, fun _ => rfl, fun _ => rfl, fun _ => rfl, fun _ => rfl, fun _ => rfl, fun _ => rfl, fun _ => rfl, fun _ => rfl, fun _ => rfl, fun _ => rfl, fun _ => rfl, fun _ => rfl, fun _ => rfl, fun _ => rfl, fun _ => rfl⟩

theorem frame_setRu (r : Reference) : Frame { ru := true } s (s.setRu r) :=
  ⟨fun _ => rfl, fun _ => rfl, fun _ => rfl, fun _ => rfl, fun _ => rfl, fun h => absurd h (by decide), fun _ => rfl, fun _ => rfl, fun _ => rfl, fun _ => rfl, fun _ => rfl, fun _ => rfl, fun _ => rfl, fun _ => rfl, fun _ => rfl, fun _ => rfl, fun _ => rfl, fun _ => rfl, fun _ => rfl, fun _ => rfl, fun _ => rfl, fun _ => rfl, fun _ => rfl, fun _ => rfl, fun _ => rfl⟩

theorem frame_setRing (r : RingNo) (g : Ring) : Frame { rings := true } s (s.setRing r g) :=
  ⟨fun _ => rfl, fun _ => rfl, fun _ => rfl, fun _ => rfl, fun _ => rfl, fun _ => rfl, fun h => absurd h (by decide), fun _ => rfl, fun _ => rfl, fun _ => rfl, fun _ => rfl, fun _ => rfl, fun _ => rfl, fun _ => rfl, fun _ => rfl, fun _ => rfl, fun _ => rfl, fun _ => rfl, fun _ => rfl, fun _ => rfl, fun _ => rfl, fun _ => rfl, fun _ => rfl, fun _ => rfl, fun _ => rfl⟩

theorem frame_setTpt (t : Table 64 TakePoint) : Frame { tpt := true } s (s.setTpt t) :=
  ⟨fun _ => rfl, fun _ => rfl, fun _ => rfl, fun _ => rfl, fun _ => rfl, fun _ => rfl, fun _ => rfl, fun h => absurd h (by decide), fun _ => rfl, fun _ => rfl, fun _ => rfl, fun _ => rfl, fun _ => rfl, fun _ => rfl, fun _ => rfl, fun _ => rfl, fun _ => rfl, fun _ => rfl, fun _ => rfl, fun _ => rfl, fun _ => rfl, fun _ => rfl, fun _ => rfl, fun _ => rfl, fun _ => rfl⟩

theorem frame_setCe (e : Engine) : Frame { ce := true } s (s.setCe e) :=
  ⟨fun _ => rfl, fun _ => rfl, fun _ => rfl, fun _ => rfl, fun _ => rfl, fun _ => rfl, fun _ => rfl, fun _ => rfl, fun _ => rfl, fun _ => rfl, fun _ => rfl, fun _ => rfl, fun _ => rfl, fun h => absurd h (by decide), fun _ => rfl, fun _ => rfl, fun _ => rfl, fun _ => rfl, fun _ => rfl, fun _ => rfl, fun _ => rfl, fun _ => rfl, fun _ => rfl, fun _ => rfl, fun _ => rfl⟩

theorem frame_setCue (c : CueNo) (q : Cue) : Frame { cues := true } s (s.setCue c q) :=
  ⟨fun _ => rfl, fun _ => rfl, fun _ => rfl, fun _ => rfl, fun _ => rfl, fun _ => rfl, fun _ => rfl, fun _ => rfl, fun _ => rfl, fun _ => rfl, fun _ => rfl, fun _ => rfl, fun _ => rfl, fun _ => rfl, fun h => absurd h (by decide), fun _ => rfl, fun _ => rfl, fun _ => rfl, fun _ => rfl, fun _ => rfl, fun _ => rfl, fun _ => rfl, fun _ => rfl, fun _ => rfl, fun _ => rfl⟩

theorem frame_setRamp (x : Dest) (r : Option Ramp) : Frame { ramps := true } s (s.setRamp x r) :=
  ⟨fun _ => rfl, fun _ => rfl, fun _ => rfl, fun _ => rfl, fun _ => rfl, fun _ => rfl, fun _ => rfl, fun _ => rfl, fun _ => rfl, fun _ => rfl, fun _ => rfl, fun _ => rfl, fun _ => rfl, fun _ => rfl, fun _ => rfl, fun h => absurd h (by decide), fun _ => rfl, fun _ => rfl, fun _ => rfl, fun _ => rfl, fun _ => rfl, fun _ => rfl, fun _ => rfl, fun _ => rfl, fun _ => rfl⟩

theorem frame_setClips (c : Table 144 Bool) : Frame { clips := true } s (s.setClips c) :=
  ⟨fun _ => rfl, fun _ => rfl, fun _ => rfl, fun _ => rfl, fun _ => rfl, fun _ => rfl, fun _ => rfl, fun _ => rfl, fun _ => rfl, fun _ => rfl, fun _ => rfl, fun _ => rfl, fun _ => rfl, fun _ => rfl, fun _ => rfl, fun _ => rfl, fun h => absurd h (by decide), fun _ => rfl, fun _ => rfl, fun _ => rfl, fun _ => rfl, fun _ => rfl, fun _ => rfl, fun _ => rfl, fun _ => rfl⟩

theorem frame_setTracks (t : Table 144 WatchedTrack) : Frame { watch := true } s (s.setTracks t) :=
  ⟨fun _ => rfl, fun _ => rfl, fun _ => rfl, fun _ => rfl, fun _ => rfl, fun _ => rfl, fun _ => rfl, fun _ => rfl, fun _ => rfl, fun _ => rfl, fun _ => rfl, fun _ => rfl, fun _ => rfl, fun _ => rfl, fun _ => rfl, fun _ => rfl, fun _ => rfl, fun h => absurd h (by decide), fun _ => rfl, fun _ => rfl, fun _ => rfl, fun _ => rfl, fun _ => rfl, fun _ => rfl, fun _ => rfl⟩

theorem frame_setRound (d : Domain) (r : Round) : Frame { cm := true } s (s.setRound d r) :=
  ⟨fun _ => rfl, fun _ => rfl, fun _ => rfl, fun _ => rfl, fun _ => rfl, fun _ => rfl, fun _ => rfl, fun _ => rfl, fun _ => rfl, fun _ => rfl, fun _ => rfl, fun _ => rfl, fun _ => rfl, fun _ => rfl, fun _ => rfl, fun _ => rfl, fun _ => rfl, fun _ => rfl, fun h => absurd h (by decide), fun _ => rfl, fun _ => rfl, fun _ => rfl, fun _ => rfl, fun _ => rfl, fun _ => rfl⟩

theorem frame_setPc (p : PathChecker) : Frame { pc := true } s (s.setPc p) :=
  ⟨fun _ => rfl, fun _ => rfl, fun _ => rfl, fun _ => rfl, fun _ => rfl, fun _ => rfl, fun _ => rfl, fun _ => rfl, fun _ => rfl, fun _ => rfl, fun _ => rfl, fun _ => rfl, fun _ => rfl, fun _ => rfl, fun _ => rfl, fun _ => rfl, fun _ => rfl, fun _ => rfl, fun _ => rfl, fun h => absurd h (by decide), fun _ => rfl, fun _ => rfl, fun _ => rfl, fun _ => rfl, fun _ => rfl⟩

theorem frame_setLog (l : FaultLog) : Frame { log := true } s (s.setLog l) :=
  ⟨fun _ => rfl, fun _ => rfl, fun _ => rfl, fun _ => rfl, fun _ => rfl, fun _ => rfl, fun _ => rfl, fun _ => rfl, fun _ => rfl, fun _ => rfl, fun _ => rfl, fun _ => rfl, fun _ => rfl, fun _ => rfl, fun _ => rfl, fun _ => rfl, fun _ => rfl, fun _ => rfl, fun _ => rfl, fun _ => rfl, fun h => absurd h (by decide), fun _ => rfl, fun _ => rfl, fun _ => rfl, fun _ => rfl⟩

theorem frame_setMgmt (m : Management) : Frame { mgmt := true, settings := true } s (s.setMgmt m) := by
  constructor <;> first | exact fun _ => rfl | exact fun h => absurd h (by decide)

/-- An update of the MP that leaves its settings. -/
theorem frame_setMgmtKeep (m : Management) (h : (s.setMgmt m).settings = s.settings := by rfl) :
    Frame { mgmt := true } s (s.setMgmt m) := by
  constructor <;> first | exact fun _ => rfl | exact fun _ => h | exact fun h => absurd h (by decide)

theorem frame_setPins (p : Pins) : Frame { pins := true } s (s.setPins p) :=
  ⟨fun h => absurd h (by decide), fun _ => rfl, fun _ => rfl, fun _ => rfl, fun _ => rfl, fun _ => rfl, fun _ => rfl, fun _ => rfl, fun _ => rfl, fun _ => rfl, fun _ => rfl, fun _ => rfl, fun _ => rfl, fun _ => rfl, fun _ => rfl, fun _ => rfl, fun _ => rfl, fun _ => rfl, fun _ => rfl, fun _ => rfl, fun _ => rfl, fun _ => rfl, fun _ => rfl, fun _ => rfl, fun _ => rfl⟩

theorem frame_report (reason : Reason) (src : FaultSource) : Frame { log := true, mgmt := true } s (report reason src s) := by
  rw [report_eq]
  exact ((frame_setLog s _).mono).trans ((frame_setMgmtKeep _ _).mono)

theorem frame_noticeForNewest : Frame { log := true, mgmt := true } s (noticeForNewest s) := by
  obtain ⟨n, p, he, _⟩ := noticeForNewest_eq s
  rw [he]
  exact ((frame_setLog s _).mono).trans ((frame_setMgmtKeep _ _).mono)

theorem frame_answerCommand (v : Verdict) (words : List Word) : Frame { mgmt := true } s (answerCommand v words s) := by
  refine frame_setMgmtKeep s _ ?_
  unfold completedManagement
  split
  · rfl
  · split <;> rfl

/-! ## Rings and take points -/

theorem frame_resetRing (r : RingNo) : Frame { rings := true, tpt := true, watch := true } s (resetRing r s) := 
  ((frame_setRing s _ _).mono).trans (((frame_setTpt _ _).mono).trans ((frame_setTracks _ _).mono))

theorem frame_starveRing (r : RingNo) : Frame { tpt := true } s (starveRing r s) := frame_setTpt s _

theorem frame_recentre (i : RecordNo) : Frame { tpt := true, log := true, mgmt := true } s (recentre i s) := 
  ((frame_setTpt s _).mono).trans ((frame_report _ _ _).mono)

theorem frame_overrunRecord (r : RingNo) (i : RecordNo) : Frame { tpt := true, log := true, mgmt := true } s (overrunRecord r i s) := 
  Frame.ite (frame_recentre s i) (Frame.refl _ s)

theorem frame_underrunRecord (d : Domain) (i : RecordNo) : Frame { tpt := true, log := true, mgmt := true } s (underrunRecord d i s) := 
  Frame.ite (frame_recentre s i) (Frame.refl _ s)

theorem frame_writeEvent (r : RingNo) (sets : List SampleSet) : Frame { rings := true, tpt := true, log := true, mgmt := true } s (writeEvent r sets s) := 
  ((frame_setRing s _ _).mono).trans ((Frame.walk (fun i s => frame_overrunRecord s r i) _ _).mono)

theorem frame_underruns (d : Domain) : Frame { tpt := true, log := true, mgmt := true } s (underruns d s) := Frame.walk (fun i s => frame_underrunRecord s d i) _ s

theorem frame_advanceTakes (d : Domain) : Frame { tpt := true } s (advanceTakes d s) := frame_setTpt s _

theorem frame_judgeTakePoints (d : Domain) : Frame { tpt := true } s (judgeTakePoints d s) := frame_setTpt s _

theorem frame_startTakePoints (d : Domain) : Frame { tpt := true } s (startTakePoints d s) := frame_setTpt s _

/-! ## Level Watch -/

theorem frame_offerSet (r : RingNo) (x : SampleSet) : Frame { watch := true } s (offerSet r x s) := frame_setTracks s _

theorem frame_offerSets (r : RingNo) (sets : List SampleSet) : Frame { watch := true } s (offerSets r sets s) := Frame.walk (fun x s => frame_offerSet s r x) sets s

theorem frame_judgeTrack (w : TrackNo) : Frame { watch := true, log := true, mgmt := true } s (judgeTrack w s) := 
  Frame.ite (((frame_setTracks s _).mono).trans ((frame_report _ _ _).mono)) ((frame_setTracks s _).mono)

theorem frame_clearPeak (w : TrackNo) : Frame { watch := true } s (clearPeak w s) := frame_setTracks s _

theorem frame_judgeFeedTrack (f : Feed) (k : Fin 16) : Frame { watch := true, log := true, mgmt := true } s (judgeFeedTrack f k s) := 
  Frame.ite (frame_judgeTrack s _) ((frame_clearPeak s _).mono)

theorem frame_resetFeedTracks (f : Feed) : Frame { watch := true } s (resetFeedTracks f s) := frame_setTracks s _

theorem frame_resetTracksOfRing (r : RingNo) : Frame { watch := true } s (resetTracksOfRing r s) := frame_setTracks s _

theorem frame_clearClips (d : Domain) : Frame { clips := true } s (clearClips d s) := frame_setClips s _

theorem frame_handOverClips (d : Domain) : Frame { clips := true, log := true, mgmt := true } s (handOverClips d s) := 
  ((Frame.walk (fun _ s => Frame.ite (frame_report s _ _) (Frame.refl _ s)) _ s).mono).trans ((frame_clearClips _ d).mono)

/-! ## Checkers -/

theorem frame_chooseChecked (d : Domain) : Frame { cm := true } s (chooseChecked d s) := 
  Frame.ite (frame_setRound s _ _) (Frame.refl _ s)

theorem frame_compareChecked (d : Domain) (v : Dest → Int) : Frame { cm := true, log := true, mgmt := true } s (compareChecked d v s) := by
  unfold compareChecked
  dsimp only
  split
  · exact Frame.refl _ s
  · exact Frame.ite (((frame_setRound s _ _).mono).trans ((frame_report _ _ _).mono)) (Frame.refl _ s)

theorem frame_freshRound (d : Domain) : Frame { cm := true } s (freshRound d s) := frame_setRound s _ _

theorem frame_stopRound (d : Domain) : Frame { cm := true } s (stopRound d s) := frame_setRound s _ _

theorem frame_abortPathCheck : Frame { pc := true, mgmt := true } s (abortPathCheck s) := 
  ((frame_setPc s _).mono).trans ((frame_answerCommand _ _ _).mono)

theorem frame_pathCheckStop (f : Feed) : Frame { pc := true, mgmt := true } s (pathCheckStop f s) := Frame.ite (frame_abortPathCheck s) (Frame.refl _ s)

theorem frame_pathCheckBoundary (f : Feed) : Frame { pc := true, mgmt := true } s (pathCheckBoundary f s) := by
  unfold pathCheckBoundary
  dsimp only
  split
  · split
    · exact Frame.refl _ s
    · exact (frame_setPc s _).mono
    · exact ((frame_setPc s _).mono).trans ((frame_answerCommand _ _ _).mono)
  · exact Frame.refl _ s

theorem frame_examineSlots (f : Feed) (line : Nat) (slots : Table 4 (Option Packet)) : Frame { pc := true } s (examineSlots f line slots s) := frame_setPc s _

theorem frame_markQuads (f : Feed) : Frame { pc := true } s (markQuads f s) := frame_setPc s _

theorem frame_noteQuiet (slots : Table 4 (Option Packet)) : Frame { pc := true } s (noteQuiet slots s) := frame_setPc s _

theorem frame_pathCheckLine (f : Feed) (line : Nat) (slots : Table 4 (Option Packet)) : Frame { pc := true, mgmt := true } s (pathCheckLine f line slots s) := by
  unfold pathCheckLine
  dsimp only
  refine Frame.ite (Frame.ite ((frame_noteQuiet s slots).mono) ?_) (Frame.refl _ s)
  have h1 : Frame { pc := true, mgmt := true } s (if s.pc.marked then s else markQuads f s) :=
    Frame.ite (Frame.refl _ s) ((frame_markQuads s f).mono)
  generalize (if s.pc.marked then s else markQuads f s) = s1 at h1 ⊢
  refine h1.trans (Frame.ite ?_ (frame_abortPathCheck _))
  split
  · exact Frame.ite ((frame_examineSlots _ _ _ _).mono) (Frame.refl _ _)
  · exact Frame.refl _ _

/-! ## Emissions -/

theorem frame_endRamp (x : Dest) : Frame { tpt := true, ramps := true } s (endRamp x s) := by
  unfold endRamp
  split
  · exact Frame.refl _ s
  · exact ((frame_setTpt s _).mono).trans ((frame_setRamp _ _ _).mono)

theorem frame_advanceRamp (x : Dest) : Frame { tpt := true, ramps := true } s (advanceRamp x s) := by
  unfold advanceRamp
  split
  · exact Frame.refl _ s
  · exact Frame.ite (frame_endRamp s x) ((frame_setRamp s _ _).mono)

theorem frame_advanceRamps (d : Domain) : Frame { tpt := true, ramps := true } s (advanceRamps d s) := 
  (Frame.walk (fun x s => frame_advanceRamp s x) _ s).trans ((frame_setTpt _ _).mono)

theorem frame_endRamps (d : Domain) : Frame { tpt := true, ramps := true } s (endRamps d s) := 
  (Frame.walk (fun x s => frame_endRamp s x) _ s).trans ((frame_setTpt _ _).mono)

theorem frame_markClips (d : Domain) : Frame { clips := true } s (markClips d s) := frame_setClips s _

theorem frame_emitTo (d : Domain) (v : LineSet) : Frame { fmt := true, lineOut := true } s (emitTo d v s) := by
  unfold emitTo
  split
  · exact (frame_setFmt s _ _).mono
  · exact ⟨fun _ => rfl, fun _ => rfl, fun h => absurd h (by decide), fun _ => rfl, fun _ => rfl, fun _ => rfl, fun _ => rfl, fun _ => rfl, fun _ => rfl, fun _ => rfl, fun _ => rfl, fun _ => rfl, fun _ => rfl, fun _ => rfl, fun _ => rfl, fun _ => rfl, fun _ => rfl, fun _ => rfl, fun _ => rfl, fun _ => rfl, fun _ => rfl, fun _ => rfl, fun _ => rfl, fun _ => rfl, fun _ => rfl⟩

theorem frame_emission (d : Domain) : Frame { tpt := true, ramps := true, log := true, mgmt := true, clips := true, cm := true, fmt := true, lineOut := true } s (emission d s) := 
  ((frame_underruns s d).mono).trans (((frame_chooseChecked _ d).mono).trans (((frame_compareChecked _ d _).mono).trans
    (((frame_markClips _ d).mono).trans (((frame_advanceTakes _ d).mono).trans (((frame_advanceRamps _ d).mono).trans
      ((frame_emitTo _ d _).mono))))))

/-! ## Commits and cues -/

theorem frame_switchDest (running : Bool) (p : Bank) (x : Dest) : Frame { tpt := true, ramps := true } s (switchDest running p x s) := by
  unfold switchDest
  dsimp only
  refine ((frame_endRamp s x).trans (Frame.ite ?_ ?_)).trans ((frame_setTpt _ _).mono)
  · exact (frame_setRamp _ _ _).mono
  · exact (frame_setTpt _ _).mono

theorem frame_switchTo (d : Domain) (running : Bool) (p : Bank) : Frame { tpt := true, ramps := true, fmt := true, active := true } s (switchTo d running p s) := by
  have h1 : Frame { tpt := true, ramps := true, fmt := true, active := true } s (walk ((List.finRange 16).map (domainDest d)) (switchDest running p) s) :=
    (Frame.walk (fun x s => frame_switchDest s running p x) _ s).mono
  unfold switchTo
  generalize walk ((List.finRange 16).map (domainDest d)) (switchDest running p) s = s1 at h1 ⊢
  have h2 : Frame { tpt := true, ramps := true, fmt := true, active := true } s1 (match domainFeed? d with
      | some f => s1.setFmt f (restartBuilt f p s.active (s1.fmt.get f))
      | none => s1) := by
    split
    · exact (frame_setFmt s1 _ _).mono
    · exact Frame.refl _ s1
  refine (h1.trans h2).trans ?_
  exact ⟨fun _ => rfl, fun _ => rfl, fun _ => rfl, fun _ => rfl, fun _ => rfl, fun _ => rfl, fun _ => rfl, fun h => absurd h (by decide), fun h => absurd h (by decide), fun _ => rfl, fun _ => rfl, fun _ => rfl, fun _ => rfl, fun _ => rfl, fun _ => rfl, fun _ => rfl, fun _ => rfl, fun _ => rfl, fun _ => rfl, fun _ => rfl, fun _ => rfl, fun _ => rfl, fun _ => rfl, fun _ => rfl, fun _ => rfl⟩

theorem frame_switchDomain (d : Domain) (running : Bool) : Frame { tpt := true, ramps := true, fmt := true, active := true, ce := true } s (switchDomain d running s) := by
  unfold switchDomain
  dsimp only
  split
  · exact Frame.refl _ s
  · exact Frame.ite (Frame.refl _ s) (((frame_switchTo s d running _).mono).trans ((frame_setCe _ _).mono))

theorem frame_refuseCommit (r : Requester) (result : CommitResult) (v : Verdict) (o : CueOutcome) (words : List Word) : Frame { ce := true, cues := true, log := true, mgmt := true } s (refuseCommit r result v o words s) := by
  unfold refuseCommit
  cases r
  · exact ((frame_setCe s _).mono).trans ((frame_answerCommand _ _ _).mono)
  · exact ((frame_setCe s _).mono).trans (((frame_setCue _ _ _).mono).trans ((frame_report _ _ _).mono))
  · exact ((frame_setCe s _).mono).trans ((frame_report _ _ _).mono)

theorem frame_switchIfStopped (f : Feed) : Frame { tpt := true, ramps := true, fmt := true, active := true, ce := true } s (switchIfStopped f s) := Frame.ite (Frame.refl _ s) (frame_switchDomain s _ _)

theorem frame_acceptCommit (r : Requester) (p : Bank) : Frame { tpt := true, ramps := true, fmt := true, active := true, ce := true } s (acceptCommit r p s) := 
  ((frame_setTpt s _).mono).trans (((frame_setCe _ _).mono).trans (Frame.walk (fun f s => frame_switchIfStopped s f) _ _))

theorem frame_validate (r : Requester) : Frame { tpt := true, ramps := true, fmt := true, active := true, ce := true, cues := true, log := true, mgmt := true } s (validate r s) := 
  Frame.ite ((frame_refuseCommit s _ _ _ _ _).mono) (Frame.ite ((frame_refuseCommit s _ _ _ _ _).mono)
    ((frame_acceptCommit s _ _).mono))

theorem frame_leaveOrder (r : Requester) : Frame { cues := true } s (leaveOrder r s) := by
  unfold leaveOrder
  split
  · exact frame_setCue s _ _
  · exact Frame.refl _ s
  · exact Frame.refl _ s

theorem frame_takeWaiting (order : List Requester) : Frame { tpt := true, ramps := true, fmt := true, active := true, ce := true, cues := true, log := true, mgmt := true } s (takeWaiting order s) := by
  induction order generalizing s with
  | nil => exact Frame.refl _ s
  | cons r rest ih =>
    unfold takeWaiting
    exact (((frame_setCe s _).mono).trans (((frame_leaveOrder _ r).mono).trans (frame_validate _ r))).trans
      (Frame.ite (Frame.refl _ _) (ih _))

theorem frame_requestCommit (r : Requester) : Frame { tpt := true, ramps := true, fmt := true, active := true, ce := true, cues := true, log := true, mgmt := true } s (requestCommit r s) := 
  Frame.ite (frame_validate s r) (Frame.ite (Frame.refl _ s) ((frame_setCe s _).mono))

theorem frame_endCommit (c : InFlight) : Frame { cues := true, log := true, mgmt := true } s (endCommit c s) := by
  unfold endCommit
  dsimp only
  split
  · exact (frame_answerCommand s _ _).mono
  · exact ((frame_setCue s _ _).mono).trans (Frame.ite (Frame.refl _ _) ((frame_report _ _ _).mono))
  · exact Frame.refl _ s

theorem frame_completeCommit (c : InFlight) : Frame { tpt := true, ramps := true, fmt := true, active := true, ce := true, cues := true, log := true, mgmt := true } s (completeCommit c s) := 
  ((frame_setTpt s _).mono).trans (((frame_setCe _ _).mono).trans (((frame_endCommit _ c).mono).trans (frame_takeWaiting _ _)))

theorem frame_completeIfSwitched : Frame { tpt := true, ramps := true, fmt := true, active := true, ce := true, cues := true, log := true, mgmt := true } s (completeIfSwitched s) := by
  unfold completeIfSwitched
  split
  · exact Frame.refl _ s
  · exact Frame.ite (frame_completeCommit s _) (Frame.refl _ s)

theorem frame_switchAt (d : Domain) (running : Bool) : Frame { tpt := true, ramps := true, fmt := true, active := true, ce := true, cues := true, log := true, mgmt := true } s (switchAt d running s) := 
  ((frame_switchDomain s d running).mono).trans (frame_completeIfSwitched _)

theorem frame_fireCue (c : CueNo) (late : Nat) : Frame { tpt := true, ramps := true, fmt := true, active := true, ce := true, cues := true, log := true, mgmt := true } s (fireCue c late s) := 
  Frame.ite (((frame_setCue s _ _).mono).trans (frame_requestCommit _ _))
    (((frame_setCue s _ _).mono).trans (frame_requestCommit _ _))

theorem frame_evaluateCue (f : Feed) (rate : Nat) (t : Stamp) (c : CueNo) : Frame { tpt := true, ramps := true, fmt := true, active := true, ce := true, cues := true, log := true, mgmt := true } s (evaluateCue f rate t c s) := Frame.ite (frame_fireCue s c _) (Frame.refl _ s)

theorem frame_takeStamp (f : Feed) (rate : Nat) (t : Stamp) : Frame { tpt := true, ramps := true, fmt := true, active := true, ce := true, cues := true, log := true, mgmt := true } s (takeStamp f rate t s) := 
  Frame.walk (fun c s => frame_evaluateCue s f rate t c) _ s

theorem frame_countDue (f : Feed) : Frame { cues := true } s (countDue f s) := 
  ⟨fun _ => rfl, fun _ => rfl, fun _ => rfl, fun _ => rfl, fun _ => rfl, fun _ => rfl, fun _ => rfl, fun _ => rfl, fun _ => rfl, fun _ => rfl, fun _ => rfl, fun _ => rfl, fun _ => rfl, fun _ => rfl, fun h => absurd h (by decide), fun _ => rfl, fun _ => rfl, fun _ => rfl, fun _ => rfl, fun _ => rfl, fun _ => rfl, fun _ => rfl, fun _ => rfl, fun _ => rfl, fun _ => rfl⟩

/-! ## Receivers and domains -/

theorem frame_startDomain (f : Feed) : Frame { fmt := true, tpt := true, cm := true } s (startDomain f s) := 
  ((frame_setFmt s _ _).mono).trans (((frame_startTakePoints _ _).mono).trans ((frame_freshRound _ _).mono))

theorem frame_stopDomain (f : Feed) : Frame { tpt := true, ramps := true, fmt := true, active := true, ce := true, cues := true, log := true, mgmt := true, clips := true, cm := true, pc := true } s (stopDomain f s) := 
  ((frame_setFmt s _ _).mono).trans (((frame_endRamps _ _).mono).trans (((frame_clearClips _ _).mono).trans
    (((frame_stopRound _ _).mono).trans (((frame_switchAt _ _ _).mono).trans ((frame_pathCheckStop _ f).mono)))))

theorem frame_leaveLocked (f : Feed) : Frame { tpt := true, watch := true, fr := true } s (leaveLocked f s) := 
  ((Frame.walk (fun q s => frame_starveRing s (feedRing f q)) _ s).mono).trans
    (((frame_resetFeedTracks _ f).mono).trans ((frame_setFr _ _ _).mono))

theorem frame_enterLocked (f : Feed) : Frame { rings := true, tpt := true, watch := true, fr := true } s (enterLocked f s) := 
  ((frame_setFr s _ _).mono).trans ((Frame.walk (fun q s => frame_resetRing s (feedRing f q)) _ _).mono)

theorem frame_quadAbsent (f : Feed) (q : Quad) : Frame { tpt := true, watch := true, fr := true } s (quadAbsent f q s) := 
  ((frame_starveRing s _).mono).trans (((frame_resetTracksOfRing _ _).mono).trans ((frame_setFr _ _ _).mono))

theorem frame_closeQuadFrame (f : Feed) (q : Quad) : Frame { tpt := true, watch := true, fr := true } s (closeQuadFrame f q s) := 
  Frame.ite (((frame_setFr s _ _).mono).trans (frame_quadAbsent _ f q)) ((frame_setFr s _ _).mono)

theorem frame_judgeCadence (f : Feed) (fm : Format) (q : Quad) : Frame { fr := true, log := true, mgmt := true } s (judgeCadence f fm q s) := 
  Frame.ite (((frame_setFr s _ _).mono).trans ((frame_report _ _ _).mono)) ((frame_setFr s _ _).mono)

theorem frame_settleStep (f : Feed) : Frame { rings := true, tpt := true, watch := true, fr := true } s (settleStep f s) := 
  Frame.ite (((frame_setFr s _ _).mono).trans (frame_enterLocked _ f)) ((frame_setFr s _ _).mono)

theorem frame_boundaryPart (f : Feed) (fm : Format) (p : Part) : Frame { tpt := true, ramps := true, fmt := true, active := true, ce := true, cues := true, log := true, mgmt := true, clips := true, cm := true, pc := true, rings := true, watch := true, fr := true } s (boundaryPart f fm p s) := by
  cases p
  · exact (frame_judgeTakePoints s _).mono
  · exact (frame_switchAt s _ _).mono
  · exact (frame_handOverClips s _).mono
  · exact (frame_judgeFeedTrack s f _).mono
  · exact (frame_closeQuadFrame s f _).mono
  · exact (frame_judgeCadence s f fm _).mono
  · exact (frame_countDue s f).mono
  · exact (frame_pathCheckBoundary s f).mono
  · exact (frame_settleStep s f).mono
  · exact (frame_leaveLocked s f).mono
  · exact (frame_stopDomain s f).mono
  all_goals exact Frame.refl _ s

theorem frame_runParts (f : Feed) (fm : Format) (order parts : List Part) : Frame { tpt := true, ramps := true, fmt := true, active := true, ce := true, cues := true, log := true, mgmt := true, clips := true, cm := true, pc := true, rings := true, watch := true, fr := true } s (runParts f fm order parts s) := 
  Frame.walk (fun p s => frame_boundaryPart s f fm p) _ s

theorem frame_openFrame (f : Feed) (fm : Format) : Frame { fmt := true, cm := true } s (openFrame f fm s) := 
  ((frame_setFmt s _ _).mono).trans ((frame_freshRound _ _).mono)

theorem frame_matchedBoundary (f : Feed) (fm : Format) (order : List Part) : Frame { tpt := true, ramps := true, fmt := true, active := true, ce := true, cues := true, log := true, mgmt := true, clips := true, cm := true, pc := true, rings := true, watch := true, fr := true } s (matchedBoundary f fm order s) := 
  ((frame_openFrame s f fm).mono).trans (frame_runParts _ f fm order _)

theorem frame_loseLock (f : Feed) (fm : Format) (c : Option Format) (order extra : List Part) : Frame { tpt := true, ramps := true, fmt := true, active := true, ce := true, cues := true, log := true, mgmt := true, clips := true, cm := true, pc := true, rings := true, watch := true, fr := true } s (loseLock f fm c order extra s) := 
  ((frame_setFr s _ _).mono).trans (((frame_report _ _ _).mono).trans (frame_runParts _ f fm order _))

theorem frame_identify (f : Feed) (fm : Format) : Frame { fr := true, fmt := true, tpt := true, cm := true, rings := true, watch := true, log := true, mgmt := true } s (identify f fm s) := by
  unfold identify
  dsimp only
  refine Frame.ite ?_ ?_
  · refine Frame.trans (s' := startDomain f (s.setFr f _)) ?_ (Frame.ite ((frame_enterLocked _ f).mono) (Frame.refl _ _))
    exact ((frame_setFr s _ _).mono).trans ((frame_startDomain _ f).mono)
  · exact ((frame_setFr s _ _).mono).trans (((frame_startDomain _ f).mono).trans ((frame_report _ _ _).mono))

theorem frame_seekBoundary (f : Feed) (m : Option Format) : Frame { fr := true, fmt := true, tpt := true, cm := true, rings := true, watch := true, log := true, mgmt := true } s (seekBoundary f m s) := by
  unfold seekBoundary
  dsimp only
  split
  · exact (frame_setFr s _ _).mono
  · exact Frame.ite (frame_identify s f _) ((frame_setFr s _ _).mono)

theorem frame_closeFrame (f : Feed) (m : Option Format) (order : List Part) : Frame { tpt := true, ramps := true, fmt := true, active := true, ce := true, cues := true, log := true, mgmt := true, clips := true, cm := true, pc := true, rings := true, watch := true, fr := true } s (closeFrame f m order s) := by
  unfold closeFrame
  dsimp only
  refine Frame.ite ?_ (((frame_seekBoundary s f m).mono).trans ((frame_countDue _ f).mono))
  split
  · exact Frame.refl _ s
  · exact Frame.ite (frame_matchedBoundary s f _ order) (frame_loseLock s f _ _ order _)

theorem frame_frameMark (f : Feed) (period : Time) (order : List Part) : Frame { tpt := true, ramps := true, fmt := true, active := true, ce := true, cues := true, log := true, mgmt := true, clips := true, cm := true, pc := true, rings := true, watch := true, fr := true } s (frameMark f period order s) := 
  Frame.ite (Frame.refl _ s) (Frame.ite (((frame_setFr s _ _).mono).trans (frame_closeFrame _ f _ order))
    ((frame_setFr s _ _).mono))

theorem frame_lineGap (f : Feed) (order : List Part) : Frame { tpt := true, ramps := true, fmt := true, active := true, ce := true, cues := true, log := true, mgmt := true, clips := true, cm := true, pc := true, rings := true, watch := true, fr := true } s (lineGap f order s) := by
  unfold lineGap
  dsimp only
  refine Frame.ite ?_ (Frame.refl _ s)
  split
  · exact Frame.refl _ s
  · exact frame_loseLock s f _ _ order _

/-! ## The silence timer, the Reference Unit and domain 8 -/

theorem frame_expireSilence : Frame { tpt := true, ramps := true, fmt := true, active := true, ce := true, cues := true, log := true, mgmt := true } s (expireSilence s) := by
  unfold expireSilence
  cases s.mgmt.silenceAction
  · exact ((frame_setMgmtKeep s _).mono).trans ((frame_report _ _ _).mono)
  · exact ((frame_setMgmtKeep s _).mono).trans (((frame_report _ _ _).mono).trans (frame_requestCommit _ _))

theorem frame_takeExpiry : Frame { tpt := true, ramps := true, fmt := true, active := true, ce := true, cues := true, log := true, mgmt := true } s (takeExpiry s) := Frame.ite (frame_expireSilence s) (Frame.refl _ s)

theorem frame_restartTimer : Frame { tpt := true, ramps := true, fmt := true, active := true, ce := true, cues := true, log := true, mgmt := true } s (restartTimer s) := by
  unfold restartTimer
  dsimp only
  refine (frame_takeExpiry s).trans ?_
  split <;> exact (frame_setMgmtKeep _ _).mono

theorem frame_countSilence : Frame { mgmt := true } s (countSilence s) := Frame.ite (frame_setMgmtKeep s _) (Frame.refl _ s)

theorem frame_turnFrame8 (realign : Bool) : Frame { ru := true, cm := true } s (turnFrame8 realign s) := 
  ((frame_setRu s _).mono).trans ((frame_freshRound _ _).mono)

theorem frame_writeLineRing (lines : LineSet) (n : LineQuad) : Frame { rings := true, tpt := true, log := true, mgmt := true } s (writeLineRing lines n s) := frame_writeEvent s _ _

theorem frame_offerLine (lines : LineSet) (l : Fin 16) : Frame { watch := true } s (offerLine lines l s) := frame_setTracks s _

theorem frame_setLineIn (l : LineSet) : Frame { lineIn := true } s ({ s with lineIn := l }) := 
  ⟨fun _ => rfl, fun h => absurd h (by decide), fun _ => rfl, fun _ => rfl, fun _ => rfl, fun _ => rfl, fun _ => rfl, fun _ => rfl, fun _ => rfl, fun _ => rfl, fun _ => rfl, fun _ => rfl, fun _ => rfl, fun _ => rfl, fun _ => rfl, fun _ => rfl, fun _ => rfl, fun _ => rfl, fun _ => rfl, fun _ => rfl, fun _ => rfl, fun _ => rfl, fun _ => rfl, fun _ => rfl, fun _ => rfl⟩

theorem frame_instantPart (carried : Bool) (lines : LineSet) (p : Part) : Frame { active := true, ce := true, clips := true, cm := true, cues := true, fmt := true, lineIn := true, lineOut := true, log := true, mgmt := true, ramps := true, rings := true, ru := true, tpt := true, watch := true } s (instantPart carried lines p s) := by
  cases p
  · exact (frame_judgeTakePoints s _).mono
  · exact (frame_switchAt s _ _).mono
  · exact (frame_handOverClips s _).mono
  · exact Frame.ite ((frame_judgeTrack s _).mono) (Frame.refl _ s)
  case silence => exact (frame_countSilence s).mono
  case emission => exact ((frame_emission s domain8).mono).trans ((frame_setRu (emission domain8 s) _).mono)
  case lineWrite n => exact (frame_writeLineRing s lines n).mono
  case lineOffer l => exact (frame_offerLine s lines l).mono
  all_goals exact Frame.refl _ s

theorem frame_takeParts (ticks : List LineSet) (carried : Bool) (taken parts : List Part) : Frame { active := true, ce := true, clips := true, cm := true, cues := true, fmt := true, lineIn := true, lineOut := true, log := true, mgmt := true, ramps := true, rings := true, ru := true, tpt := true, watch := true } s (takeParts ticks carried taken parts s) := by
  induction parts generalizing taken s with
  | nil => exact Frame.refl _ s
  | cons p rest ih => exact (frame_instantPart s _ _ p).trans (ih _ _)

theorem frame_runTicks (ticks : List LineSet) (order frameOrder : List Part) : Frame { active := true, ce := true, clips := true, cm := true, cues := true, fmt := true, lineIn := true, lineOut := true, log := true, mgmt := true, ramps := true, rings := true, ru := true, tpt := true, watch := true } s (runTicks ticks order frameOrder s) := 
  ((frame_setLineIn s _).mono).trans (frame_takeParts _ _ _ _ _)

theorem frame_runningTicks (ticks : List LineSet) (order frameOrder : List Part) : Frame { active := true, ce := true, clips := true, cm := true, cues := true, fmt := true, lineIn := true, lineOut := true, log := true, mgmt := true, ramps := true, rings := true, ru := true, tpt := true, watch := true } s (runningTicks ticks order frameOrder s) := 
  (frame_runTicks s _ _ _).trans (frame_takeParts _ _ _ _ _)

theorem frame_endingTicks (realign : Bool) (ticks : List LineSet) (order frameOrder : List Part) : Frame { active := true, ce := true, clips := true, cm := true, cues := true, fmt := true, lineIn := true, lineOut := true, log := true, mgmt := true, ramps := true, rings := true, ru := true, tpt := true, watch := true } s (endingTicks realign ticks order frameOrder s) := 
  (frame_runTicks s _ _ _).trans (((frame_turnFrame8 _ _).mono).trans (frame_takeParts _ _ _ _ _))

theorem frame_passTime (e : Time) : Frame { ru := true } s (passTime e s) := frame_setRu s _

theorem frame_setTickEvent (e : Time) (lines : LineSet) (order frameOrder : List Part) : Frame { active := true, ce := true, clips := true, cm := true, cues := true, fmt := true, lineIn := true, lineOut := true, log := true, mgmt := true, ramps := true, rings := true, ru := true, tpt := true, watch := true } s (setTickEvent e lines order frameOrder s) := by
  unfold setTickEvent
  have h0 := (frame_passTime s e).mono (u := { active := true, ce := true, clips := true, cm := true, cues := true, fmt := true, lineIn := true, lineOut := true, log := true, mgmt := true, ramps := true, rings := true, ru := true, tpt := true, watch := true })
  generalize passTime e s = s0 at h0 ⊢
  have h1 : Frame { active := true, ce := true, clips := true, cm := true, cues := true, fmt := true, lineIn := true, lineOut := true, log := true, mgmt := true, ramps := true, rings := true, ru := true, tpt := true, watch := true } s0 (if frameTicks s0.ru ≤ s0.ru.ticks then endingTicks false [] [] frameOrder s0 else s0) :=
    Frame.ite (frame_endingTicks _ _ _ _ _) (Frame.refl _ _)
  dsimp only
  generalize (if frameTicks s0.ru ≤ s0.ru.ticks then endingTicks false [] [] frameOrder s0 else s0) = s1 at h1 ⊢
  exact h0.trans (Frame.ite (Frame.refl _ _) (h1.trans
    (Frame.ite (frame_endingTicks _ _ _ _ _) (frame_runningTicks _ _ _ _))))

theorem frame_pulseEvent (e : Time) (owed : OwedTicks) (frameOrder : List Part) : Frame { active := true, ce := true, clips := true, cm := true, cues := true, fmt := true, lineIn := true, lineOut := true, log := true, mgmt := true, ramps := true, rings := true, ru := true, tpt := true, watch := true } s (pulseEvent e owed frameOrder s) := by
  unfold pulseEvent
  dsimp only
  refine ((frame_passTime s e).mono).trans ?_
  split
  · exact ((frame_setRu _ _).mono).trans ((frame_endingTicks _ _ _ _ _).trans (((frame_report _ _ _).mono).trans
      ((frame_setRu _ _).mono)))
  · exact Frame.ite ((frame_endingTicks _ _ _ _ _).trans ((frame_setRu _ _).mono)) ((frame_setRu _ _).mono)

theorem frame_waitTimeoutEvent (e : Time) (owed : OwedTicks) (frameOrder : List Part) : Frame { active := true, ce := true, clips := true, cm := true, cues := true, fmt := true, lineIn := true, lineOut := true, log := true, mgmt := true, ramps := true, rings := true, ru := true, tpt := true, watch := true } s (waitTimeoutEvent e owed frameOrder s) := 
  ((frame_passTime s e).mono).trans (Frame.ite (frame_endingTicks _ _ _ _ _) (Frame.refl _ _))

theorem frame_referenceLostEvent (e : Time) : Frame { ru := true, log := true, mgmt := true } s (referenceLostEvent e s) := 
  ((frame_passTime s e).mono).trans (Frame.ite
    (((frame_setRu _ _).mono).trans ((frame_report _ _ _).mono)) (Frame.refl _ _))

/-! ## Packets and lines -/

theorem frame_changeQuad (f : Feed) (q : Quad) (g : QuadTrack → QuadTrack) : Frame { fr := true } s (changeQuad f q g s) := frame_setFr s _ _

theorem frame_claim (f : Feed) (q : Quad) : Frame { fr := true } s (claim f q s) := frame_setFr s _ _

theorem frame_makePresent (f : Feed) (q : Quad) : Frame { fr := true, rings := true, tpt := true, watch := true } s (makePresent f q s) := 
  Frame.ite (Frame.refl _ s) (((frame_changeQuad s f q _).mono).trans ((frame_resetRing _ _).mono))

theorem frame_checkSequence (f : Feed) (q : Quad) (c : BitVec 4) : Frame { fr := true, log := true, mgmt := true } s (checkSequence f q c s) := 
  Frame.trans (Frame.ite ((frame_report s _ _).mono) (Frame.refl _ s)) ((frame_changeQuad _ f q _).mono)

theorem frame_acceptSound (f : Feed) (q : Quad) (p : Packet) : Frame { fr := true, rings := true, tpt := true, watch := true, log := true, mgmt := true } s (acceptSound f q p s) := 
  ((frame_makePresent s f q).mono).trans (((frame_writeEvent _ _ _).mono).trans (((frame_offerSets _ _ _).mono).trans
    ((frame_changeQuad _ f q _).mono)))

theorem frame_discardSound (f : Feed) (q : Quad) : Frame { fr := true, log := true, mgmt := true } s (discardSound f q s) := 
  ((frame_changeQuad s f q _).mono).trans ((frame_report _ _ _).mono)

theorem frame_lockedSound (f : Feed) (line : Nat) (q : Quad) (p : Packet) : Frame { fr := true, rings := true, tpt := true, watch := true, log := true, mgmt := true } s (lockedSound f line q p s) := 
  Frame.ite (Frame.ite (((frame_claim s f q).mono).trans ((frame_report _ _ _).mono))
    (((frame_claim s f q).mono).trans (((frame_checkSequence _ f q _).mono).trans (frame_acceptSound _ f q p))))
    ((frame_discardSound s f q).mono)

theorem frame_remember (f : Feed) (q : Quad) (p : Packet) : Frame { fr := true } s (remember f q p s) := Frame.ite (frame_setFr s _ _) (Frame.refl _ s)

theorem frame_soundPacket (f : Feed) (line : Nat) (p : Packet) : Frame { fr := true, rings := true, tpt := true, watch := true, log := true, mgmt := true } s (soundPacket f line p s) := by
  unfold soundPacket
  split
  · exact Frame.refl _ s
  · exact ((frame_remember s f _ p).mono).trans (Frame.ite (frame_lockedSound _ f line _ p) (Frame.refl _ _))

theorem frame_passThrough (f : Feed) (p : Packet) : Frame { fr := true } s (passThrough f p s) := Frame.ite (frame_setFr s _ _) (Frame.refl _ s)

theorem frame_stampPacket (f : Feed) (p : Packet) : Frame { tpt := true, ramps := true, fmt := true, active := true, ce := true, cues := true, log := true, mgmt := true, fr := true } s (stampPacket f p s) := by
  unfold stampPacket
  refine Frame.trans ?_ ((frame_passThrough _ f p).mono)
  split
  · exact Frame.ite ((frame_takeStamp s f _ _).mono) (Frame.refl _ s)
  · exact Frame.refl _ s

theorem frame_truncatedPacket (f : Feed) (h : Option Word) : Frame { log := true, mgmt := true } s (truncatedPacket f h s) := by
  unfold truncatedPacket
  split
  · exact Frame.refl _ s
  · exact Frame.ite (frame_report s _ _) (Frame.refl _ s)

theorem frame_countBuilt (f : Feed) (line : Nat) : Frame { fmt := true } s (countBuilt f line s) := frame_setFmt s _ _

theorem frame_drainQueue (f : Feed) : Frame { log := true, mgmt := true } s (drainQueue f s) := 
  Frame.ite (Frame.ite (((frame_setMgmtKeep s _).mono).trans (frame_noticeForNewest _)) ((frame_setMgmtKeep s _).mono))
    (Frame.refl _ s)

theorem frame_sendLine (f : Feed) (p b : List Word) : Frame { fmt := true } s (sendLine f p b s) := frame_setFmt s _ _

theorem frame_sendEmpty (f : Feed) (r : LineRecord) : Frame { fmt := true } s (sendEmpty f r s) := frame_setFmt s _ _

theorem frame_sendBuilt (f : Feed) (line : Nat) (r : LineRecord) : Frame { fmt := true, log := true, mgmt := true, pc := true } s (sendBuilt f line r s) := 
  ((frame_countBuilt s f line).mono).trans (((frame_drainQueue _ f).mono).trans (((frame_sendLine _ f _ _).mono).trans
    ((frame_pathCheckLine _ f line _).mono)))

theorem frame_sendOutput (f : Feed) (line : Nat) (r : LineRecord) : Frame { fmt := true, log := true, mgmt := true, pc := true } s (sendOutput f line r s) := 
  Frame.ite (frame_sendBuilt s f line r) ((frame_sendEmpty s f r).mono)

theorem frame_openLine (f : Feed) (mark : Bool) : Frame { fr := true, fmt := true } s (openLine f mark s) := 
  ((frame_setFr s _ _).mono).trans ((frame_setFmt _ _ _).mono)

theorem frame_emitOnce (f : Feed) : Frame { tpt := true, ramps := true, log := true, mgmt := true, clips := true, cm := true, fmt := true, lineOut := true } s (emitOnce f s) := Frame.ite (frame_emission s _) (Frame.refl _ s)

end Sys2Proof.Machine
end

