-- ==== Sys2Proof/Laws/Instant.lean ====
section
/-! SUPPORT. One instant of domain 8: what its set ticks bring is taken once, either before the frame end or with it. -/

namespace Sys2Proof.Machine

theorem beforeFrameEnd_perm (ticks : List LineSet) (order frameOrder : List Part) :
    (beforeFrameEnd ticks order frameOrder).Perm ((ticks.flatMap fun _ => tickParts).diff (heldOver frameOrder)) :=
  schedule_perm _ _

/-- What the ticks bring before the frame end and with it is together what they bring (R11, R69). -/
theorem before_append_with_perm (ticks : List LineSet) (order frameOrder : List Part) :
    (beforeFrameEnd ticks order frameOrder ++ withFrameEnd ticks order frameOrder).Perm
      (ticks.flatMap fun _ => tickParts) := by
  refine List.perm_iff_count.2 fun a => ?_
  have h : (beforeFrameEnd ticks order frameOrder).count a ≤ (ticks.flatMap fun _ => tickParts).count a := by
    rw [(beforeFrameEnd_perm ticks order frameOrder).count_eq, List.count_diff]
    omega
  rw [List.count_append, withFrameEnd, List.count_diff]
  omega

/-- Only what the order of the frame end names is held over to it, and never an emission (R66, R135). -/
theorem mem_withFrameEnd {ticks : List LineSet} {order frameOrder : List Part} {p : Part}
    (h : p ∈ withFrameEnd ticks order frameOrder) : p ∈ frameOrder ∧ p ≠ .emission := by
  have hc := List.count_pos_iff.2 h
  rw [withFrameEnd, List.count_diff, (beforeFrameEnd_perm ticks order frameOrder).count_eq, List.count_diff] at hc
  have hm : p ∈ heldOver frameOrder := List.count_pos_iff.1 (by omega)
  rw [heldOver, List.mem_filter] at hm
  refine ⟨hm.1, ?_⟩
  rintro rfl
  simp at hm

end Sys2Proof.Machine
end

