-- ==== Sys2Proof/Laws/Kept.lean ====
section
/-! SUPPORT. What a step is made of, said once: a property that the leaf operations keep is kept by every event, and one that the leaf operations of the commands keep as well is kept by every step. -/

namespace Sys2Proof.Machine

set_option Elab.async false

/-- The blocks that the leaf operations leave out of account: a property asked to be kept does not look at them. -/
def freeBlocks : Touch :=
  { pins := true, lineIn := true, lineOut := true, fr := true, fmt := true, ru := true, cues := true, clips := true,
    watch := true, cm := true, pc := true, mgmt := true, pending := true }

/-- A property that every leaf operation of the events keeps. -/
structure KeptByEvents (P : State → Prop) : Prop where
  free : ∀ {s s' : State}, Frame freeBlocks s s' → P s → P s'
  report : ∀ reason src s, P s → P (report reason src s)
  notice : ∀ s, P s → P (noticeForNewest s)
  ce : ∀ e s, e.inFlight = s.ce.inFlight → P s → P (s.setCe e)
  switched : ∀ d running c s, s.ce.inFlight = some c → P s → P (switchDomain d running s)
  accept : ∀ r s, (unionPairs (snapshotFor r s) s).length ≤ Config.takePoints → P s →
    P ((s.setTpt (reserveFor (snapshotFor r s) s.tpt)).setCe
      { s.ce with inFlight := some (newInFlight r (snapshotFor r s) s) })
  complete : ∀ c e s, s.ce.inFlight = some c → e.inFlight = none → P s → P ((s.setTpt (unreserve s.tpt)).setCe e)
  resetRing : ∀ r s, P s → P (resetRing r s)
  starveRing : ∀ r s, P s → P (starveRing r s)
  startTakePoints : ∀ d s, P s → P (startTakePoints d s)
  judgeTakePoints : ∀ d s, P s → P (judgeTakePoints d s)
  writeEvent : ∀ r sets s, P s → P (writeEvent r sets s)
  emission : ∀ d s, P s → P (emission d s)
  endRamps : ∀ d s, P s → P (endRamps d s)

theorem keeps_walk {α : Type} {P : State → Prop} {f : α → State → State} (h : ∀ a s, P s → P (f a s)) (l : List α)
    (s : State) (hs : P s) : P (walk l f s) := by
  induction l generalizing s with
  | nil => exact hs
  | cons a l ih => exact ih _ (h a s hs)

theorem keeps_ite {P : State → Prop} {c : Prop} [Decidable c] {a b : State} (ha : P a) (hb : P b) :
    P (if c then a else b) := by
  split
  · exact ha
  · exact hb

theorem keeps_writeEvent {P : State → Prop} (hr : ∀ r g s, P s → P (s.setRing r g)) (hc : ∀ i s, P s → P (recentre i s))
    (r : RingNo) (sets : List SampleSet) (s : State) (hs : P s) : P (writeEvent r sets s) :=
  keeps_walk (fun i s hs => keeps_ite (hc i s hs) hs) _ _ (hr _ _ _ hs)

theorem keeps_underruns {P : State → Prop} (hc : ∀ i s, P s → P (recentre i s)) (d : Domain) (s : State) (hs : P s) :
    P (underruns d s) := keeps_walk (fun i s hs => keeps_ite (hc i s hs) hs) _ _ hs

theorem keeps_endRamps {P : State → Prop} (he : ∀ x s, P s → P (endRamp x s))
    (hu : ∀ d s, P s → P (s.setTpt (freeUnused d s.tpt))) (d : Domain) (s : State) (hs : P s) : P (endRamps d s) :=
  hu _ _ (keeps_walk he _ s hs)

theorem keeps_emission {P : State → Prop} (hf : ∀ {s s' : State}, Frame freeBlocks s s' → P s → P s')
    (hp : ∀ reason src s, P s → P (report reason src s)) (hc : ∀ i s, P s → P (recentre i s))
    (ha : ∀ d s, P s → P (advanceTakes d s)) (hr : ∀ d s, P s → P (advanceRamps d s)) (d : Domain) (s : State) (hs : P s) :
    P (emission d s) := by
  have h1 := hf ((frame_chooseChecked _ d).mono) (keeps_underruns hc d s hs)
  have h2 : ∀ v, P (compareChecked d v (chooseChecked d (underruns d s))) := by
    intro v
    unfold compareChecked
    dsimp only
    split
    · exact h1
    · exact keeps_ite (hp _ _ _ (hf ((frame_setRound _ _ _).mono) h1)) h1
  exact hf ((frame_emitTo _ d _).mono) (hr _ _ (ha _ _ (hf ((frame_markClips _ d).mono) (h2 _))))

namespace KeptByEvents

variable {P : State → Prop} (h : KeptByEvents P)
include h

theorem of_frame {t : Touch} {s s' : State} (k : Frame t s s') (ht : t.le freeBlocks = true := by decide) (hs : P s) : P s' :=
  h.free (k.mono ht) hs

/-! ## Commits and cues -/

theorem answerCommand (v : Verdict) (words : List Word) (s : State) (hs : P s) : P (answerCommand v words s) :=
  h.of_frame (frame_answerCommand s v words) (hs := hs)

theorem refuseCommit (r : Requester) (result : CommitResult) (v : Verdict) (o : CueOutcome) (words : List Word) (s : State)
    (hs : P s) : P (refuseCommit r result v o words s) := by
  have h1 : P (s.setCe { s.ce with lastSource := some r, lastResult := result }) := h.ce { s.ce with lastSource := some r, lastResult := result } s rfl hs
  unfold Machine.refuseCommit
  cases r
  · exact h.answerCommand _ _ _ h1
  · exact h.report _ _ _ (h.of_frame (frame_setCue _ _ _) (hs := h1))
  · exact h.report _ _ _ h1

theorem switchDomain (d : Domain) (running : Bool) (s : State) (hs : P s) : P (switchDomain d running s) := by
  by_cases hc : s.ce.inFlight = none
  · have : Machine.switchDomain d running s = s := by
      unfold Machine.switchDomain
      rw [hc]
    rw [this]
    exact hs
  · obtain ⟨c, hc⟩ := Option.ne_none_iff_exists'.mp hc
    exact h.switched d running c s hc hs

theorem acceptCommit (r : Requester) (s : State) (hn : (unionPairs (snapshotFor r s) s).length ≤ Config.takePoints)
    (hs : P s) : P (acceptCommit r (snapshotFor r s) s) :=
  keeps_walk (fun _ s hs => keeps_ite hs (h.switchDomain _ _ s hs)) _ _ (h.accept r s hn hs)

theorem validate (r : Requester) (s : State) (hs : P s) : P (validate r s) := by
  unfold Machine.validate
  dsimp only
  split
  · exact h.refuseCommit _ _ _ _ _ s hs
  · split
    · exact h.refuseCommit _ _ _ _ _ s hs
    · rename_i hn
      exact h.acceptCommit r s (Nat.le_of_not_lt hn) hs

theorem takeWaiting (order : List Requester) (s : State) (hs : P s) : P (takeWaiting order s) := by
  induction order generalizing s with
  | nil => exact hs
  | cons r rest ih =>
    have h1 : P (s.setCe { s.ce with waiting := rest }) := h.ce { s.ce with waiting := rest } s rfl hs
    have h2 := h.validate r _ (h.of_frame (frame_leaveOrder _ r) (hs := h1))
    unfold Machine.takeWaiting
    exact keeps_ite h2 (ih _ h2)

theorem requestCommit (r : Requester) (s : State) (hs : P s) : P (requestCommit r s) :=
  keeps_ite (h.validate r s hs) (keeps_ite hs (h.ce { s.ce with waiting := s.ce.waiting ++ [r] } s rfl hs))

theorem endCommit (c : InFlight) (s : State) (hs : P s) : P (endCommit c s) := by
  unfold Machine.endCommit
  dsimp only
  split
  · exact h.answerCommand _ _ s hs
  · have h1 : ∀ i q, P (s.setCue i q) := fun i q => h.of_frame (frame_setCue s i q) (hs := hs)
    exact keeps_ite (h1 _ _) (h.report _ _ _ (h1 _ _))
  · exact hs

theorem completeCommit (c : InFlight) (s : State) (hc : s.ce.inFlight = some c) (hs : P s) : P (completeCommit c s) :=
  h.takeWaiting _ _ (h.endCommit c _ (h.complete c _ s hc rfl hs))

theorem completeIfSwitched (s : State) (hs : P s) : P (completeIfSwitched s) := by
  unfold Machine.completeIfSwitched
  split
  · exact hs
  · exact keeps_ite (h.completeCommit _ s ‹_› hs) hs

theorem switchAt (d : Domain) (running : Bool) (s : State) (hs : P s) : P (switchAt d running s) :=
  h.completeIfSwitched _ (h.switchDomain d running s hs)

theorem fireCue (c : CueNo) (late : Nat) (s : State) (hs : P s) : P (fireCue c late s) := by
  unfold Machine.fireCue
  dsimp only
  exact keeps_ite (h.requestCommit _ _ (h.of_frame (frame_setCue s c _) (hs := hs)))
    (h.requestCommit _ _ (h.of_frame (frame_setCue s c _) (hs := hs)))

theorem takeStamp (f : Feed) (rate : Nat) (t : Stamp) (s : State) (hs : P s) : P (takeStamp f rate t s) :=
  keeps_walk (fun _ s hs => keeps_ite (h.fireCue _ _ s hs) hs) _ s hs

/-! ## Receivers and domains -/

theorem startDomain (f : Feed) (s : State) (hs : P s) : P (startDomain f s) :=
  h.of_frame (frame_freshRound _ _) (hs := h.startTakePoints _ _ (h.of_frame (frame_setFmt s f _) (hs := hs)))

theorem stopDomain (f : Feed) (s : State) (hs : P s) : P (stopDomain f s) :=
  h.of_frame (frame_pathCheckStop _ f) (hs := h.switchAt _ _ _
    (h.of_frame (frame_stopRound _ _) (hs := h.of_frame (frame_clearClips _ _) (hs := h.endRamps _ _
      (h.of_frame (frame_setFmt s f _) (hs := hs))))))

theorem leaveLocked (f : Feed) (s : State) (hs : P s) : P (leaveLocked f s) :=
  h.of_frame (frame_setFr _ f _) (hs := h.of_frame (frame_resetFeedTracks _ f)
    (hs := keeps_walk (fun q s hs => h.starveRing _ s hs) _ s hs))

theorem enterLocked (f : Feed) (s : State) (hs : P s) : P (enterLocked f s) :=
  keeps_walk (fun q s hs => h.resetRing _ s hs) _ _ (h.of_frame (frame_setFr s f _) (hs := hs))

theorem quadAbsent (f : Feed) (q : Quad) (s : State) (hs : P s) : P (quadAbsent f q s) :=
  h.of_frame (frame_setFr _ f _) (hs := h.of_frame (frame_resetTracksOfRing _ _) (hs := h.starveRing _ s hs))

theorem closeQuadFrame (f : Feed) (q : Quad) (s : State) (hs : P s) : P (closeQuadFrame f q s) :=
  keeps_ite (h.quadAbsent f q _ (h.of_frame (frame_setFr s f _) (hs := hs))) (h.of_frame (frame_setFr s f _) (hs := hs))

theorem judgeCadence (f : Feed) (fm : Format) (q : Quad) (s : State) (hs : P s) : P (judgeCadence f fm q s) :=
  keeps_ite (h.report _ _ _ (h.of_frame (frame_setFr s f _) (hs := hs))) (h.of_frame (frame_setFr s f _) (hs := hs))

theorem settleStep (f : Feed) (s : State) (hs : P s) : P (settleStep f s) :=
  keeps_ite (h.enterLocked f _ (h.of_frame (frame_setFr s f _) (hs := hs))) (h.of_frame (frame_setFr s f _) (hs := hs))

theorem handOverClips (d : Domain) (s : State) (hs : P s) : P (handOverClips d s) :=
  h.of_frame (frame_clearClips _ d) (hs := keeps_walk (fun _ s hs => keeps_ite (h.report _ _ s hs) hs) _ s hs)

theorem judgeTrack (w : TrackNo) (s : State) (hs : P s) : P (judgeTrack w s) :=
  keeps_ite (h.report _ _ _ (h.of_frame (frame_setTracks s _) (hs := hs))) (h.of_frame (frame_setTracks s _) (hs := hs))

theorem judgeFeedTrack (f : Feed) (k : Fin 16) (s : State) (hs : P s) : P (judgeFeedTrack f k s) :=
  keeps_ite (h.judgeTrack _ s hs) (h.of_frame (frame_clearPeak s _) (hs := hs))

theorem boundaryPart (f : Feed) (fm : Format) (p : Part) (s : State) (hs : P s) : P (boundaryPart f fm p s) := by
  cases p
  · exact h.judgeTakePoints _ s hs
  · exact h.switchAt _ _ s hs
  · exact h.handOverClips _ s hs
  · exact h.judgeFeedTrack f _ s hs
  · exact h.closeQuadFrame f _ s hs
  · exact h.judgeCadence f fm _ s hs
  · exact h.of_frame (frame_countDue s f) (hs := hs)
  · exact h.of_frame (frame_pathCheckBoundary s f) (hs := hs)
  · exact h.settleStep f s hs
  · exact h.leaveLocked f s hs
  · exact h.stopDomain f s hs
  all_goals exact hs

theorem runParts (f : Feed) (fm : Format) (order parts : List Part) (s : State) (hs : P s) :
    P (runParts f fm order parts s) := keeps_walk (fun p s hs => h.boundaryPart f fm p s hs) _ s hs

theorem matchedBoundary (f : Feed) (fm : Format) (order : List Part) (s : State) (hs : P s) :
    P (matchedBoundary f fm order s) := h.runParts f fm order _ _ (h.of_frame (frame_openFrame s f fm) (hs := hs))

theorem loseLock (f : Feed) (fm : Format) (c : Option Format) (order extra : List Part) (s : State) (hs : P s) :
    P (loseLock f fm c order extra s) :=
  h.runParts f fm order _ _ (h.report _ _ _ (h.of_frame (frame_setFr s f _) (hs := hs)))

theorem identify (f : Feed) (fm : Format) (s : State) (hs : P s) : P (identify f fm s) := by
  have h1 : ∀ r, P (Machine.startDomain f (s.setFr f r)) := fun r => h.startDomain f _ (h.of_frame (frame_setFr s f r) (hs := hs))
  exact keeps_ite (keeps_ite (h.enterLocked f _ (h1 _)) (h1 _)) (h.report _ _ _ (h1 _))

theorem seekBoundary (f : Feed) (m : Option Format) (s : State) (hs : P s) : P (seekBoundary f m s) := by
  have h1 : ∀ r, P (s.setFr f r) := fun r => h.of_frame (frame_setFr s f r) (hs := hs)
  unfold Machine.seekBoundary
  dsimp only
  split
  · exact h1 _
  · exact keeps_ite (h.identify f _ s hs) (h1 _)

theorem closeFrame (f : Feed) (m : Option Format) (order : List Part) (s : State) (hs : P s) : P (closeFrame f m order s) := by
  unfold Machine.closeFrame
  dsimp only
  refine keeps_ite ?_ (h.of_frame (frame_countDue _ f) (hs := h.seekBoundary f m s hs))
  split
  · exact hs
  · exact keeps_ite (h.matchedBoundary f _ order s hs) (h.loseLock f _ _ order _ s hs)

theorem frameMark (f : Feed) (period : Time) (order : List Part) (s : State) (hs : P s) : P (frameMark f period order s) := by
  have h1 : ∀ r, P (s.setFr f r) := fun r => h.of_frame (frame_setFr s f r) (hs := hs)
  exact keeps_ite hs (keeps_ite (h.closeFrame f _ order _ (h1 _)) (h1 _))

theorem lineGap (f : Feed) (order : List Part) (s : State) (hs : P s) : P (lineGap f order s) := by
  unfold Machine.lineGap
  dsimp only
  refine keeps_ite ?_ hs
  split
  · exact hs
  · exact h.loseLock f _ _ order _ s hs

/-! ## The silence timer, the Reference Unit and domain 8 -/

theorem takeExpiry (s : State) (hs : P s) : P (takeExpiry s) := by
  have h1 : ∀ r src, P (Machine.report r src (s.setMgmt { s.mgmt with timerRunning := false, remaining := 0 })) :=
    fun r src => h.report r src _ (h.of_frame (frame_setMgmtKeep s _) (hs := hs))
  refine keeps_ite ?_ hs
  unfold expireSilence
  dsimp only
  split
  · exact h1 _ _
  · exact h.requestCommit _ _ (h1 _ _)

theorem restartTimer (s : State) (hs : P s) : P (restartTimer s) := by
  have h1 := h.takeExpiry s hs
  unfold Machine.restartTimer
  dsimp only
  split
  all_goals exact h.of_frame (frame_setMgmtKeep _ _) (hs := h1)

theorem emitTick (s : State) (hs : P s) : P (emitTick s) :=
  h.of_frame (frame_setRu (Machine.emission domain8 s) _) (hs := h.emission domain8 s hs)

theorem instantPart (carried : Bool) (lines : LineSet) (p : Part) (s : State) (hs : P s) :
    P (instantPart carried lines p s) := by
  cases p
  · exact h.judgeTakePoints _ s hs
  · exact h.switchAt _ _ s hs
  · exact h.handOverClips _ s hs
  · exact keeps_ite (h.judgeTrack _ s hs) hs
  case silence => exact h.of_frame (frame_countSilence s) (hs := hs)
  case emission => exact h.emitTick s hs
  case lineWrite n => exact h.writeEvent (lineRing n) [lineQuadSet lines n] s hs
  case lineOffer l => exact h.of_frame (frame_offerLine s lines l) (hs := hs)
  all_goals exact hs

theorem takeParts (ticks : List LineSet) (carried : Bool) (taken parts : List Part) (s : State) (hs : P s) :
    P (takeParts ticks carried taken parts s) := by
  induction parts generalizing taken s with
  | nil => exact hs
  | cons p rest ih => exact ih _ _ (h.instantPart _ _ p s hs)

theorem runTicks (ticks : List LineSet) (order frameOrder : List Part) (s : State) (hs : P s) :
    P (runTicks ticks order frameOrder s) := h.takeParts _ _ _ _ _ (h.of_frame (frame_setLineIn s _) (hs := hs))

theorem runningTicks (ticks : List LineSet) (order frameOrder : List Part) (s : State) (hs : P s) :
    P (runningTicks ticks order frameOrder s) := h.takeParts _ _ _ _ _ (h.runTicks _ _ _ s hs)

theorem endingTicks (realign : Bool) (ticks : List LineSet) (order frameOrder : List Part) (s : State) (hs : P s) :
    P (endingTicks realign ticks order frameOrder s) :=
  h.takeParts _ _ _ _ _ (h.of_frame (frame_turnFrame8 _ _) (hs := h.runTicks _ _ _ s hs))

theorem setTickEvent (e : Time) (lines : LineSet) (order frameOrder : List Part) (s : State) (hs : P s) :
    P (setTickEvent e lines order frameOrder s) := by
  have h0 : P (Machine.passTime e s) := h.of_frame (frame_passTime s e) (hs := hs)
  exact keeps_ite h0 (keeps_ite (h.endingTicks _ _ _ _ _ (keeps_ite (h.endingTicks _ _ _ _ _ h0) h0))
    (h.runningTicks _ _ _ _ (keeps_ite (h.endingTicks _ _ _ _ _ h0) h0)))

theorem pulseEvent (e : Time) (owed : OwedTicks) (frameOrder : List Part) (s : State) (hs : P s) :
    P (pulseEvent e owed frameOrder s) := by
  have h0 : P (Machine.passTime e s) := h.of_frame (frame_passTime s e) (hs := hs)
  have hp : ∀ s, P s → P (pulseSeen s) := fun s hs => h.of_frame (frame_setRu s _) (hs := hs)
  unfold Machine.pulseEvent
  dsimp only
  split
  · exact hp _ (h.report _ _ _ (h.endingTicks _ _ _ _ _ (h.of_frame (frame_setRu _ _) (hs := h0))))
  · exact keeps_ite (hp _ (h.endingTicks _ _ _ _ _ h0)) (hp _ h0)

theorem waitTimeoutEvent (e : Time) (owed : OwedTicks) (frameOrder : List Part) (s : State) (hs : P s) :
    P (waitTimeoutEvent e owed frameOrder s) := by
  have h0 : P (Machine.passTime e s) := h.of_frame (frame_passTime s e) (hs := hs)
  exact keeps_ite (h.endingTicks _ _ _ _ _ h0) h0

theorem referenceLostEvent (e : Time) (s : State) (hs : P s) : P (referenceLostEvent e s) := by
  have h0 : P (Machine.passTime e s) := h.of_frame (frame_passTime s e) (hs := hs)
  exact keeps_ite (h.report _ _ _ (h.of_frame (frame_setRu _ _) (hs := h0))) h0

/-! ## Packets and lines -/

theorem lockedSound (f : Feed) (line : Nat) (q : Quad) (p : Packet) (s : State) (hs : P s) : P (lockedSound f line q p s) := by
  have hc : P (claim f q s) := h.of_frame (frame_claim s f q) (hs := hs)
  have hq : ∀ g s, P s → P (changeQuad f q g s) := fun g s hs => h.of_frame (frame_changeQuad s f q g) (hs := hs)
  refine keeps_ite (keeps_ite (h.report _ _ _ hc) ?_) (h.report _ _ _ (hq _ _ hs))
  have h1 : P (checkSequence f q p.soundHead.count (claim f q s)) := hq _ _ (keeps_ite (h.report _ _ _ hc) hc)
  have h2 : P (makePresent f q (checkSequence f q p.soundHead.count (claim f q s))) :=
    keeps_ite h1 (h.resetRing _ _ (hq _ _ h1))
  exact hq _ _ (h.of_frame (frame_offerSets _ _ _) (hs := h.writeEvent _ _ _ h2))

theorem soundPacket (f : Feed) (line : Nat) (p : Packet) (s : State) (hs : P s) : P (soundPacket f line p s) := by
  unfold Machine.soundPacket
  split
  · exact hs
  · have h1 : ∀ q, P (remember f q p s) := fun q => h.of_frame (frame_remember s f q p) (hs := hs)
    exact keeps_ite (h.lockedSound f line _ p _ (h1 _)) (h1 _)

theorem stampPacket (f : Feed) (p : Packet) (s : State) (hs : P s) : P (stampPacket f p s) := by
  unfold Machine.stampPacket
  refine h.of_frame (frame_passThrough _ f p) (hs := ?_)
  split
  · exact keeps_ite (h.takeStamp f _ _ s hs) hs
  · exact hs

theorem truncatedPacket (f : Feed) (w : Option Word) (s : State) (hs : P s) : P (truncatedPacket f w s) := by
  unfold Machine.truncatedPacket
  split
  · exact hs
  · exact keeps_ite (h.report _ _ s hs) hs

theorem drainQueue (f : Feed) (s : State) (hs : P s) : P (drainQueue f s) :=
  keeps_ite (keeps_ite (h.notice _ (h.of_frame (frame_setMgmtKeep s _) (hs := hs)))
    (h.of_frame (frame_setMgmtKeep s _) (hs := hs))) hs

theorem sendOutput (f : Feed) (line : Nat) (r : LineRecord) (s : State) (hs : P s) : P (sendOutput f line r s) :=
  keeps_ite (h.of_frame (frame_pathCheckLine _ f line _) (hs := h.of_frame (frame_sendLine _ f _ _)
    (hs := h.drainQueue f _ (h.of_frame (frame_countBuilt s f line) (hs := hs)))))
    (h.of_frame (frame_sendEmpty s f r) (hs := hs))

theorem openLine (f : Feed) (mark : Bool) (s : State) (hs : P s) : P (openLine f mark s) :=
  h.of_frame (frame_openLine s f mark) (hs := hs)

theorem emitOnce (f : Feed) (s : State) (hs : P s) : P (emitOnce f s) := keeps_ite (h.emission _ s hs) hs

end KeptByEvents

/-! ## Commands and steps -/

/-- A property that every leaf operation of the events and of the commands keeps. -/
structure KeptBySteps (P : State → Prop) : Prop extends KeptByEvents P where
  settings : ∀ {s s' : State}, Frame { mgmt := true, cm := true, pins := true, pending := true, settings := true } s s' →
    s'.watch = s.watch → P s → P s'
  presence : ∀ a b c s, P s → P { s with watch := { s.watch with threshold := heldThreshold a b, frames := heldFrames c } }
  writeEntry : ∀ b x src gain inv psrc pgain pinv delay ramp mute e s,
    entryArgs? src gain inv psrc pgain pinv delay ramp mute = some e → P s → P (writeEntryIn b x e s)
  writeMode : ∀ b q m s, P s → P (setStaging b { stagingOf s b with modes := (stagingOf s b).modes.set q m } s)
  copyBank : ∀ b c s, P s → P (setStaging b (bankOf s c) s)
  setGuard : ∀ i b c d e g s, guardArgs? b c d e = some g → P s → P { s with guards := s.guards.set i g }
  storeFailsafe : ∀ b s, P s →
    P { s with failsafe := bankOf s b, store := ⟨.writing, none, some (imageOf (bankOf s b) s.guards)⟩ }
  interrupted : ∀ s, P s → P { s with store := s.store.interrupted }
  written : ∀ s, P s → P { s with store := s.store.written }
  faultsRead : ∀ s, P s → P (s.setLog { s.log with pending := false })
  faultsCleared : ∀ n s, P s → P (s.setLog (clearedLog n s.log))
  masked : ∀ m s, P s → P (s.setLog { s.log with masked := m })
  startUp : ∀ cause s, P s → P (startUp cause s)

namespace KeptBySteps

variable {P : State → Prop} (h : KeptBySteps P)
include h

/-- What a command leaves, where the command that is taken leaves a state with P. -/
theorem setFeedTo (f : Feed) (enable : Bool) (expected : Option Format) (settle : Nat) (s : State) (hs : P s) :
    P (setFeedTo f enable expected settle s) := by
  have hf : ∀ r s, P s → P (s.setFr f r) := fun r s hs => h.of_frame (frame_setFr s f r) (hs := hs)
  have hw : ∀ s, P s → P (toWrongFormat f s) := fun s hs => h.report _ _ _ (hf _ s hs)
  refine keeps_ite ?_ ?_
  · unfold enableFeed
    dsimp only
    split
    · exact hf _ _ (hf _ s hs)
    · exact hf _ s hs
    · exact keeps_ite (hf _ _ (hf _ s hs)) (hw _ (hf _ s hs))
    · exact keeps_ite (hf _ s hs) (h.leaveLocked f _ (hw _ (hf _ s hs)))
    · exact keeps_ite (hf _ _ (hf _ s hs)) (hf _ s hs)
  · unfold disableFeed
    dsimp only
    split
    · exact hf _ s hs
    · exact hf _ _ (hf _ s hs)
    · exact h.stopDomain f _ (hf _ _ (hf _ s hs))
    · exact h.stopDomain f _ (hf _ _ (hf _ s hs))
    · exact h.stopDomain f _ (h.leaveLocked f _ (hf _ _ (hf _ s hs)))

/-- The state an act works in, before its answer. -/
theorem act (r : CommandRow) (args : List Word) (s : State) (hs : P s) : P (act r args s).run := by
  have an : ∀ v words s, P s → P (Act.answered v words s).run := fun v words s hs => h.answerCommand v words s hs
  have st : ∀ {s s' : State}, Frame { mgmt := true, pins := true, settings := true } s s' → P s → P s' :=
    fun k hs => h.settings k.mono (k.watch rfl) hs
  cases r <;> dsimp only [Machine.act]
  · unfold actSetFeed
    split
    · split
      · dsimp only
        split
        · exact an _ _ s hs
        · exact an _ _ _ (h.setFeedTo _ _ _ _ s hs)
      · exact an _ _ s hs
    · exact an _ _ s hs
  · unfold actReadFeed
    split
    · split <;> exact an _ _ s hs
    · exact an _ _ s hs
  · unfold actSetReference
    split
    · split
      · exact an _ _ _ (h.of_frame (frame_setRu s _) (hs := hs))
      · exact an _ _ s hs
    · exact an _ _ s hs
  · unfold actFlush
    split
    · exact an _ _ _ (keeps_walk (fun r s hs => h.resetRing r s hs) _ s hs)
    · exact an _ _ s hs
  · unfold actReadTakePoints
    split
    · split
      · split <;> exact an _ _ s hs
      · exact an _ _ s hs
    · exact an _ _ s hs
  · unfold actWriteEntry
    split
    · split
      · rename_i he
        exact an _ _ _ (h.writeEntry _ _ _ _ _ _ _ _ _ _ _ _ s he hs)
      · exact an _ _ s hs
    · exact an _ _ s hs
  · unfold actWriteQuadMode
    split
    · split
      · exact an _ _ _ (h.writeMode _ _ _ s hs)
      · exact an _ _ s hs
    · exact an _ _ s hs
  · unfold actCopyBank
    split
    · split
      · exact an _ _ _ (h.copyBank _ _ s hs)
      · exact an _ _ s hs
    · exact an _ _ s hs
  · unfold actReadEntry
    split
    · split <;> exact an _ _ s hs
    · exact an _ _ s hs
  · unfold actReadQuadModes
    split
    · split
      · split <;> exact an _ _ s hs
      · exact an _ _ s hs
    · exact an _ _ s hs
  · unfold actSetGuard
    split
    · split
      · rename_i hg
        split
        · exact an _ _ s hs
        · split
          · exact an _ _ s hs
          · exact an _ _ _ (h.setGuard _ _ _ _ _ _ s hg hs)
      · exact an _ _ s hs
    · exact an _ _ s hs
  · unfold actReadGuards
    split <;> exact an _ _ s hs
  · unfold actCommit
    split
    · split
      · exact h.requestCommit _ s hs
      · exact an _ _ s hs
    · exact an _ _ s hs
  · unfold actArmCue
    split
    · split
      · exact an _ _ _ (h.of_frame (frame_setCue _ _ _)
          (hs := h.ce { s.ce with waiting := s.ce.waiting.filter fun r => r != .cue _ } s rfl hs))
      · exact an _ _ s hs
    · exact an _ _ s hs
  · unfold actDisarmCue
    split
    · split
      · exact an _ _ _ (h.of_frame (frame_setCue _ _ _)
          (hs := h.ce { s.ce with waiting := s.ce.waiting.filter fun r => r != .cue _ } s rfl hs))
      · exact an _ _ s hs
    · exact an _ _ s hs
  · unfold actReadCues
    split <;> exact an _ _ s hs
  · unfold actSetPresence
    split
    · exact an _ _ s hs
    · exact an _ _ _ (h.presence _ _ _ s hs)
    · exact an _ _ s hs
  · unfold actStartPathCheck
    split
    · split
      · dsimp only
        split
        · exact h.of_frame (frame_setPc s _) (hs := hs)
        · exact an _ _ _ (h.of_frame (frame_setPc s _) (hs := hs))
      · exact an _ _ s hs
    · exact an _ _ s hs
  · unfold actSetMixerCheck
    split
    · exact an _ _ s hs
    · split
      · refine an _ _ _ (h.settings (s := s) ?_ (by rfl) hs)
        constructor <;> first | exact fun _ => rfl | exact fun h => absurd h (by decide)
      · exact an _ _ s hs
    · exact an _ _ s hs
  · unfold actReadFaults
    split
    · split
      · exact an _ _ _ (h.faultsRead s hs)
      · exact an _ _ s hs
    · exact an _ _ s hs
  · unfold actClearFaults
    split
    · split
      · exact an _ _ _ (h.faultsCleared _ s hs)
      · exact an _ _ s hs
    · exact an _ _ s hs
  · unfold actSetNotices
    split
    · exact an _ _ _ (h.notice s hs)
    · split
      · exact an _ _ _ (h.notice _ (h.masked _ s hs))
      · exact an _ _ s hs
    · exact an _ _ s hs
  · unfold actSetControl
    split
    · split
      · split
        · exact an _ _ s hs
        · exact an _ _ _ (h.restartTimer _ (st ((frame_setMgmt _ _).mono) (h.takeExpiry s hs)))
      · exact an _ _ s hs
    · exact an _ _ s hs
  · unfold actReadDevice
    split <;> exact an _ _ s hs
  · unfold actResetDevice
    split
    · exact h.of_frame (frame_setPins _ _) (hs := h.of_frame (frame_setMgmtKeep s _) (hs := hs))
    · exact an _ _ s hs
  · unfold actStoreFailsafe
    split
    · split
      · dsimp only
        split
        · exact an _ _ s hs
        · split
          · exact an _ _ s hs
          · exact an _ _ _ (h.storeFailsafe _ s hs)
      · exact an _ _ s hs
    · exact an _ _ s hs

theorem takeCommand (c : Command) (s : State) (hs : P s) : P (takeCommand c s) := by
  have h1 : P (execute s) := h.of_frame (frame_setMgmtKeep s _) (hs := hs)
  unfold Machine.takeCommand
  split
  · exact h.answerCommand _ _ _ h1
  · exact h.act _ _ _ h1

theorem cxRun (fuel : Nat) (s : State) (hs : P s) : P (cxRun fuel s) := by
  induction fuel generalizing s with
  | zero => exact hs
  | succ n ih =>
    unfold Machine.cxRun
    split
    · split
      · exact hs
      · exact ih _ (h.takeCommand _ s hs)
    · exact hs

theorem finish (s : State) (hs : P s) : P (finish s) := h.cxRun _ s hs

theorem acceptCommand (c : Command) (s : State) (hs : P s) : P (acceptCommand c s) := by
  have h1 := h.restartTimer s hs
  exact h.finish _ (keeps_ite (h.of_frame (frame_setMgmtKeep _ _) (hs := h1)) (h.report _ _ _ h1))

theorem clearPacket (s : State) (hs : P s) : P (clearPacket s) := by
  refine h.of_frame (frame_setMgmtKeep _ _ ?_) (hs := h.restartTimer s hs)
  unfold Management.cleared
  split <;> rfl

theorem managementPacket (f : Feed) (p : Packet) (s : State) (hs : P s) : P (managementPacket f p s) := by
  have hp : P (passThrough f p s) := h.of_frame (frame_passThrough s f p) (hs := hs)
  have hj : ∀ s, P s → P (judgeManagement p s) := fun s hs =>
    keeps_ite (keeps_ite (h.clearPacket s hs) (h.acceptCommand _ s hs)) (h.report _ _ s hs)
  exact keeps_ite (hj s hs) (keeps_ite (hj _ hp) hp)

theorem takeScanned (f : Feed) (line : Nat) (control : Bool) (x : Scanned) (s : State) (hs : P s) :
    P (takeScanned f line control x s) := by
  have hp : ∀ p, P (passThrough f p s) := fun p => h.of_frame (frame_passThrough s f p) (hs := hs)
  refine keeps_ite hs ?_
  split
  · unfold takePacket
    split
    · exact h.soundPacket f line _ s hs
    · exact keeps_ite (h.managementPacket f _ s hs) (hp _)
    · exact keeps_ite (h.managementPacket f _ s hs) (hp _)
    · exact h.stampPacket f _ s hs
    · exact hp _
    · exact hp _
  · exact h.truncatedPacket f _ s hs

theorem readLine (f : Feed) (line : Nat) (control : Bool) (items : List Scanned) (taken : Nat) (em : List Nat) (s : State)
    (hs : P s) : P (readLine f line control items taken em s) := by
  induction items generalizing taken em s with
  | nil => exact keeps_walk (fun _ s hs => h.emitOnce f s hs) _ s hs
  | cons x rest ih =>
    exact ih _ _ _ (h.takeScanned f line control x _ (keeps_walk (fun _ s hs => h.emitOnce f s hs) _ s hs))

theorem takeLine (f : Feed) (r : LineRecord) (em : List Nat) (s : State) (hs : P s) : P (takeLine f r em s) :=
  keeps_ite (h.of_frame (frame_sendEmpty s f r) (hs := hs))
    (h.sendOutput f _ r _ (h.readLine f _ _ _ _ _ _ (h.openLine f _ s hs)))

theorem event {f : State → State} (hf : ∀ s, P s → P (f s)) (s : State) (hs : P s) : P (event f s) :=
  keeps_ite (h.finish _ (hf _ (keeps_ite (h.startUp _ s hs) (h.takeExpiry s hs)))) hs

theorem feedEvent {f : State → State} (hf : ∀ s, P s → P (f s)) (s : State) (hs : P s) : P (feedEvent f s) :=
  h.event (fun s hs => keeps_ite hs (hf s hs)) s hs

theorem manageRow (code tag : Byte) (args : List Word) (s : State) (hs : P s) : P (manageRow code tag args s) :=
  h.feedEvent (fun s hs => keeps_ite (h.acceptCommand _ s hs) (h.report _ _ s hs)) s hs

/-- Every command keeps P. -/
theorem exec (c : Instr) (s t : State) (hs : P s) (he : exec c s = .next t) : P t := by
  have pins : ∀ p s, P s → P (s.setPins p) := fun p s hs => h.of_frame (frame_setPins s p) (hs := hs)
  cases c
  case powerApplied => injection he with he; subst he; exact h.startUp _ _ (pins _ _ (pins _ s hs))
  case powerLoss => injection he with he; subst he; exact h.interrupted _ (pins _ s hs)
  case resetPinAssert => injection he with he; subst he; exact pins _ s hs
  case resetPinRelease => injection he with he; subst he; exact keeps_ite (h.startUp _ _ (pins _ s hs)) (pins _ s hs)
  case commandStartUp => injection he with he; subst he; exact keeps_ite (h.startUp _ _ (pins _ s hs)) hs
  case lineRecord => injection he with he; subst he; exact h.feedEvent (fun s hs => h.takeLine _ _ _ s hs) s hs
  case frameBoundary => injection he with he; subst he; exact h.feedEvent (fun s hs => h.frameMark _ _ _ s hs) s hs
  case lineRecordGap => injection he with he; subst he; exact h.event (fun s hs => h.lineGap _ _ s hs) s hs
  case setTick => injection he with he; subst he; exact h.event (fun s hs => h.setTickEvent _ _ _ _ s hs) s hs
  case referencePulse => injection he with he; subst he; exact h.event (fun s hs => h.pulseEvent _ _ _ s hs) s hs
  case referenceWaitTimeout => injection he with he; subst he; exact h.event (fun s hs => h.waitTimeoutEvent _ _ _ s hs) s hs
  case referenceLost => injection he with he; subst he; exact h.event (fun s hs => h.referenceLostEvent _ s hs) s hs
  case controlSilence => injection he with he; subst he; exact h.event (fun s hs => hs) s hs
  case storeWriteEnd => injection he with he; subst he; exact keeps_ite (h.written s hs) hs
  all_goals
    injection he with he
    subst he
    exact h.manageRow _ _ _ s hs

/-- Every step keeps P. -/
theorem step (s t : State) (hs : P s) (he : step s = .next t) : P t := by
  unfold Machine.step at he
  split at he
  · injection he with he
    exact he ▸ hs
  · refine h.exec _ _ t (h.settings (s := s) ?_ (by rfl) hs) he
    constructor <;> first | exact fun _ => rfl | exact fun h => absurd h (by decide)

end KeptBySteps

end Sys2Proof.Machine
end

