-- ==== Sys2Proof/Laws/Table.lean ====
section
/-! SUPPORT. What the tables of a fixed size give back. -/

namespace Sys2Proof.Table

set_option Elab.async false

variable {n : Nat} {α β : Type}

theorem get_mk (l : List α) (h : l.length = n) (i : Fin n) : (⟨l, h⟩ : Table n α).get i = l.get (i.cast h.symm) := rfl

theorem get_eq_getElem (t : Table n α) (i : Fin n) : t.get i = t.cells[i.val]'(by rw [t.size]; exact i.isLt) := rfl

@[simp] theorem get_set_same (t : Table n α) (i : Fin n) (a : α) : (t.set i a).get i = a := by
  simp [get_eq_getElem, set]

theorem get_set_other (t : Table n α) (i j : Fin n) (a : α) (h : i ≠ j) : (t.set i a).get j = t.get j := by
  have h' : i.val ≠ j.val := fun e => h (Fin.ext e)
  simp [get_eq_getElem, set, h']

theorem get_set (t : Table n α) (i j : Fin n) (a : α) : (t.set i a).get j = if i = j then a else t.get j := by
  by_cases h : i = j
  · subst h; simp
  · simp [h, get_set_other]

@[simp] theorem get_fill (a : α) (i : Fin n) : (fill n a).get i = a := by simp [get_eq_getElem, fill]

@[simp] theorem get_tab (f : Fin n → α) (i : Fin n) : (tab n f).get i = f i := by simp [get_eq_getElem, tab]

@[simp] theorem get_map (f : α → β) (t : Table n α) (i : Fin n) : (t.map f).get i = f (t.get i) := by
  simp [get_eq_getElem, map]

@[simp] theorem get_modify_same (t : Table n α) (i : Fin n) (f : α → α) : (t.modify i f).get i = f (t.get i) := by
  simp [modify]

theorem get_modify_other (t : Table n α) (i j : Fin n) (f : α → α) (h : i ≠ j) : (t.modify i f).get j = t.get j := by
  simp [modify, get_set_other, h]

/-- Two tables with the same thing at every place are the same table. -/
theorem ext_get {t u : Table n α} (h : ∀ i, t.get i = u.get i) : t = u := by
  obtain ⟨l, hl⟩ := t
  obtain ⟨m, hm⟩ := u
  have : l = m := by
    apply List.ext_getElem (by rw [hl, hm])
    intro i h1 h2
    exact h ⟨i, hl ▸ h1⟩
  subst this
  rfl

@[simp] theorem set_get (t : Table n α) (i : Fin n) : t.set i (t.get i) = t :=
  ext_get fun j => by by_cases h : i = j <;> simp [get_set, h]

/-- A property of every cell is a property of what every place gives. -/
theorem all_cells_iff (t : Table n α) (p : α → Bool) : t.cells.all p = true ↔ ∀ i, p (t.get i) = true := by
  rw [List.all_eq_true]
  constructor
  · intro h i
    exact h _ (List.get_mem _ _)
  · intro h x hx
    obtain ⟨i, hi, rfl⟩ := List.mem_iff_getElem.mp hx
    exact h ⟨i, t.size ▸ hi⟩

theorem mem_cells_iff (t : Table n α) (x : α) : x ∈ t.cells ↔ ∃ i, t.get i = x := by
  constructor
  · intro hx
    obtain ⟨i, hi, rfl⟩ := List.mem_iff_getElem.mp hx
    exact ⟨⟨i, t.size ▸ hi⟩, rfl⟩
  · rintro ⟨i, rfl⟩
    exact List.get_mem _ _

end Sys2Proof.Table
end

