-- ==== Sys2Proof/Laws/Operands.lean ====
section
/-! SUPPORT. The argument forms read back what the result forms write, and give none outside their ranges. -/

namespace Sys2Proof

set_option Elab.async false

theorem numWord_toNat {k : Nat} (h : k < 65536) : (numWord k).toNat = k := by
  simp [numWord, BitVec.toNat_ofNat, Nat.mod_eq_of_lt h]

@[simp] theorem numWord_of_toNat (w : Word) : numWord w.toNat = w := by simp [numWord]

theorem index?_numWord (n : Nat) (hn : n ≤ 65536) (f : Fin n) : (numWord f.val).index? n = some f := by
  unfold Word.index?
  simp [numWord_toNat (show f.val < 65536 by omega)]

theorem index?_none {n : Nat} {w : Word} (h : n ≤ w.toNat) : w.index? n = none := by
  unfold Word.index?
  simp [show ¬w.toNat < n by omega]

theorem index?_of_lt {n : Nat} {w : Word} (h : w.toNat < n) : w.index? n = some ⟨w.toNat, h⟩ := by
  unfold Word.index?
  simp [h]

@[simp] theorem flag?_flagWord (b : Bool) : (flagWord b).flag? = some b := by cases b <;> decide

theorem word_ne_of_le {w k : Word} {n : Nat} (h : n ≤ w.toNat) (hk : k.toNat < n) : w ≠ k := by
  rintro rfl
  omega

theorem flag?_none {w : Word} (h : 2 ≤ w.toNat) : w.flag? = none := by
  unfold Word.flag?
  rw [if_neg (word_ne_of_le h (by decide)),
    if_neg (word_ne_of_le h (by decide))]

namespace Machine

@[simp] theorem bankArg?_bankCode (b : BankCode) : bankArg? (bankCode b) = some b := by cases b <;> decide

theorem bankArg?_none {w : Word} (h : 4 ≤ w.toNat) : bankArg? w = none := by
  unfold bankArg?
  rw [if_neg (word_ne_of_le h (by decide)),
    if_neg (word_ne_of_le h (by decide)),
    if_neg (word_ne_of_le h (by decide)),
    if_neg (word_ne_of_le h (by decide))]

@[simp] theorem stagingArg?_stagingCode (b : Staging) : stagingArg? (numWord (stagingCode b)) = some b := by
  cases b <;> decide

theorem stagingArg?_none {w : Word} (h1 : w ≠ 1) (h2 : w ≠ 2) : stagingArg? w = none := by
  unfold stagingArg?
  rw [if_neg h1, if_neg h2]

@[simp] theorem modeArg?_modeCode (m : QuadMode) : modeArg? (modeCode m) = some m := by cases m <;> decide

theorem modeArg?_none {w : Word} (h : 4 ≤ w.toNat) : modeArg? w = none := by
  unfold modeArg?
  rw [if_neg (word_ne_of_le h (by decide)),
    if_neg (word_ne_of_le h (by decide)),
    if_neg (word_ne_of_le h (by decide)),
    if_neg (word_ne_of_le h (by decide))]

@[simp] theorem rampArg?_rampWord (c : RampCode) : rampArg? (rampWord c) = some c := by cases c <;> decide

theorem rampArg?_none {w : Word} (h : 4 ≤ w.toNat) : rampArg? w = none := by
  unfold rampArg?
  rw [if_neg (word_ne_of_le h (by decide)),
    if_neg (word_ne_of_le h (by decide)),
    if_neg (word_ne_of_le h (by decide)),
    if_neg (word_ne_of_le h (by decide))]

@[simp] theorem silenceTimeArg?_code (t : SilenceTime) : silenceTimeArg? (silenceTimeCode t) = some t := by
  cases t <;> decide

theorem silenceTimeArg?_none {w : Word} (h : 4 ≤ w.toNat) : silenceTimeArg? w = none := by
  unfold silenceTimeArg?
  rw [if_neg (word_ne_of_le h (by decide)),
    if_neg (word_ne_of_le h (by decide)),
    if_neg (word_ne_of_le h (by decide)),
    if_neg (word_ne_of_le h (by decide))]

@[simp] theorem silenceActionArg?_code (a : SilenceAction) : silenceActionArg? (silenceActionCode a) = some a := by
  cases a <;> decide

theorem silenceActionArg?_none {w : Word} (h : 2 ≤ w.toNat) : silenceActionArg? w = none := by
  unfold silenceActionArg?
  rw [if_neg (word_ne_of_le h (by decide)),
    if_neg (word_ne_of_le h (by decide))]

theorem sourceOfNumber_sourceNumber (x : Source) : sourceOfNumber (sourceNumber x) = x := by
  cases x with
  | feedTrack f t =>
    have h : 16 * f.val + t.val < 128 := by omega
    have h1 : (16 * f.val + t.val) / 16 = f.val := by omega
    have h2 : (16 * f.val + t.val) % 16 = t.val := by omega
    simp only [sourceNumber, sourceOfNumber, h, h1, h2]
    rfl
  | lineInput l =>
    simp [sourceNumber, sourceOfNumber]

theorem sourceNumber_sourceOfNumber (w : TrackNo) : sourceNumber (sourceOfNumber w) = w := by
  unfold sourceOfNumber
  split
  · ext
    simp [sourceNumber]
    omega
  · ext
    simp [sourceNumber]
    omega

@[simp] theorem sourceArg?_sourceWord (x : Option Source) : sourceArg? (sourceWord x) = some x := by
  cases x with
  | none => rfl
  | some x =>
    unfold sourceArg? sourceWord
    rw [if_neg, index?_numWord 144 (by norm_num)]
    · simp [sourceOfNumber_sourceNumber]
    · intro h
      have h2 := congrArg BitVec.toNat h
      rw [numWord_toNat (by omega)] at h2
      have : (255 : Word).toNat = 255 := rfl
      omega

theorem sourceArg?_none {w : Word} (h : 144 ≤ w.toNat) (h2 : w ≠ 255) : sourceArg? w = none := by
  unfold sourceArg?
  rw [if_neg h2, index?_none h]
  rfl

@[simp] theorem expectedArg?_formatWord (f : Option Format) : expectedArg? (formatWord f) = some f := by
  cases f with
  | none => rfl
  | some f =>
    unfold expectedArg? formatWord
    rw [if_neg, index?_numWord 11 (by norm_num)]
    · rfl
    · intro h
      have h2 := congrArg BitVec.toNat h
      rw [numWord_toNat (by omega)] at h2
      have : (255 : Word).toNat = 255 := rfl
      omega

theorem expectedArg?_none {w : Word} (h : 11 ≤ w.toNat) (h2 : w ≠ 255) : expectedArg? w = none := by
  unfold expectedArg?
  rw [if_neg h2, index?_none h]
  rfl

end Machine

end Sys2Proof
end

