-- ==== Sys2Proof/Tests/Slice0.lean ====
section
/-! SUPPORT. The model's own tests: commands that are not well formed, worked cases of the spec, and for each statement a state and operands that meet its hypotheses. -/

namespace Sys2Proof.Tests

open Sys2Proof.Machine

set_option maxRecDepth 20000
set_option Elab.async false

/-! ## Well-formed commands -/

theorem test_argumentsFit : (Instr.flush 0 (List.replicate 29 0)).wf = true ∧ (Instr.flush 0 (List.replicate 30 0)).wf = false := by
  decide

theorem test_codeUnknown : (Instr.unknownCommand 7 0 []).wf = true ∧ (Instr.unknownCommand 64 0 []).wf = false := by decide

theorem test_ordersFit : (Instr.frameBoundary 0 1 [.switch, .takePoints, .absence 0, .absence 1]).wf = true ∧
    (Instr.frameBoundary 0 1 [.switch, .switch]).wf = false ∧ (Instr.lineRecordGap 0 [.stop, .stop]).wf = false ∧
    (Instr.referencePulse 0 ⟨[], [.lineWrite 3, .emission, .lineWrite 3]⟩ [.takePoints, .lineWrite 0, .lineWrite 0]).wf = true ∧
    (Instr.setTick 0 (Table.fill 16 0) [.takePoints] []).wf = false ∧
    (Instr.referenceWaitTimeout 0 ⟨[], []⟩ [.clips, .clips]).wf = false := by decide

theorem test_emissionsFit : (Instr.lineRecord 0 ⟨false, [], []⟩ [0, 1]).wf = true ∧
    (Instr.lineRecord 0 ⟨false, [], []⟩ [0, 1, 2]).wf = false := by decide

theorem test_noWordSpells : decodeTableWord 16 0xA5C3 = none := by decide

/-! ## Helpers -/

/-- The state that a command leaves, where it goes on. -/
def after (c : Instr) (s : State) : State :=
  match exec c s with
  | .next t => t
  | .fault _ | .refused _ => s

/-- The outcome and the words of the last answer in the AQ. -/
def answered (s : State) : Option (Verdict × List Word) := s.mgmt.answers.getLast?.map fun a => (a.verdict, a.words)

/-- The reasons and the sources in the Fault Log. -/
def told (s : State) : List (Reason × FaultSource) := s.log.records.map fun r => (r.reason, r.source)

/-- An entry that takes a source as it is. -/
def plain (src : Source) : Entry := { Entry.default with source := some src }

/-- A bank that carries line input 0 to line output 0 and to track 0 of output feed 0, which it embeds. -/
def patched : Bank :=
  ⟨(Bank.default.entries.set 128 (plain (.lineInput 0))).set 0 { plain (.lineInput 0) with ramp := .none },
    Bank.default.modes.set 0 .embed24⟩

/-- Feed 0 LOCKED in a format, with quad 0 PRESENT. -/
def lockedFr (fm : Format) : Receiver :=
  { Receiver.start with
    state := .locked, detected := some fm, frameOpen := true, lineCount := 1125
    quads := Receiver.start.quads.set 0 { QuadTrack.start with state := .present, basePending := false, lastCount := 9 } }

/-- Reset, with feed 0 LOCKED in format 0. -/
def lockedState : State := State.reset.setFr 0 (lockedFr 0)

/-- Reset, with feed 0 in a running state but with nothing locked. -/
def runningFr (st : FrState) : State :=
  State.reset.setFr 0 { Receiver.start with
    state := st, detected := some 0, frameOpen := true, lineCount := 1125, settleRemaining := 2 }

/-- A commit of a cue in flight, with the domains that run still to switch. -/
def inFlight : State :=
  State.reset.setCe { Engine.start with inFlight := some ⟨patched, .cue 0, 0, 0, false, Table.fill 9 false, 0⟩ }

/-- A record on ring 32 in domain 8. -/
def record (st : TpState) (take : Nat) : TakePoint := { TakePoint.start with state := st, ring := 32, domain := 8, take := take, references := 1 }

/-- A ring that so many equal sets have been written to. -/
def ringOf (n : Nat) : Ring := ⟨n, List.replicate n ⟨Table.fill 4 5, Table.fill 4 true⟩⟩

/-! ## Worked cases of the spec -/

/-- R71: a TRACK flush of feed 3, track 9 answers QUAD, 14, 1, and a FEED flush of feed 6 answers FEED, 24, 4. -/
theorem test_flush_of_R71 : answered (after (.flush 1 [3, 3, 9]) State.reset) = some (.done, [2, 14, 1]) ∧
    answered (after (.flush 1 [1, 6]) State.reset) = some (.done, [1, 24, 4]) := by decide +kernel

/-- Section 3.5: the frame of phase 1 at 30/1.001, and how many lines carry two sets. -/
theorem test_lines_of_section_3_5 : (List.range 6).map (lineSets 4 1) = [1, 1, 2, 1, 2, 1] ∧ lineSets 4 1 1122 = 2 ∧
    ((List.range 1123).filter fun j => lineSets 4 1 j == 2).length = 479 ∧
    ((List.range 1123).filter fun j => lineSets 4 0 j == 2).length = 478 := by decide +kernel

/-- Section 7.7: rounding, word length and saturation at the limits. -/
theorem test_arithmetic_of_section_7_7 : roundDiv 167683145728 16384 = 10234567 ∧ roundDiv 549747359745 16384 = 33553916 ∧
    saturate 8388608 = 8388607 ∧ [8388600, 8388591, -8388608, -1000, 8, 7, -8].map round20 =
      [8388592, 8388592, -8388608, -1008, 16, 0, -16] ∧ [0, 8, 16].map (blend 1000 (-1000) 32) = [1000, 500, 0] ∧
    blend 7 0 32 16 = 4 ∧ blend (-7) 0 32 16 = -4 ∧ blend 10000000 0 32 31 = 312500 := by decide +kernel

/-- R109: a stamp just after midnight is one frame late against the last label of the day, and a label's frames field of 40 is taken as 24 at 25 frames a second. -/
theorem test_lateness_of_R109 : lateness 25 ⟨0, 0, 0, 0⟩ ⟨23, 59, 59, 24⟩ = 1 ∧ lateness 25 ⟨1, 2, 3, 24⟩ ⟨1, 2, 3, 40⟩ = 0 ∧
    lateness 25 ⟨1, 2, 3, 23⟩ ⟨1, 2, 3, 24⟩ = 86400 * 25 - 1 := by decide +kernel

/-- Section 10.5, steps 1 to 5, by the record's reason, repeat count and position, and the notice that waits. -/
theorem test_log_of_section_10_5 :
    let s0 := State.reset.setLog { FaultLog.start with masked := false }
    let gap := report .sequenceGap (.inputQuad 2 1)
    let left := fun (s : State) => noticeForNewest (s.setMgmt { s.mgmt with notice := none })
    let s2 := report .packetMisplaced (.inputQuad 2 1) (gap s0)
    let s5 := left (gap (left s2))
    s2.mgmt.notice = some ⟨.sequenceGap, .inputQuad 2 1, 1⟩ ∧ s2.log.pending = true ∧
      (left s2).mgmt.notice = some ⟨.packetMisplaced, .inputQuad 2 1, 2⟩ ∧ (left s2).log.pending = false ∧
      s5.mgmt.notice = none ∧ s5.log.records.map (fun r => r.repeats) = [1, 0] := by decide +kernel

/-- R66 and R135: with 95 sets on a line ring, the frame end that comes before the tick's write leaves the record FILLING and the one after it finds 96; and an offer before the judgment makes the input PRESENT in the frame that ends. -/
theorem test_orders_of_R66_and_R135 :
    let s := ((State.reset.setRu { Reference.start with ticks := 1919 }).setRing 32 (ringOf 95)).setTpt
      (State.reset.tpt.set 0 (record .filling 0))
    let t := fun order => after (.setTick 0 (Table.fill 16 8192) [] order) s
    ((t []).tpt.get 0).state = .running ∧ ((t [.takePoints, .lineWrite 0]).tpt.get 0).state = .filling ∧
      ((t [.lineWrite 0, .takePoints]).tpt.get 0).state = .running ∧
      ((t [.takePoints, .lineWrite 0]).rings.get 32).written = 96 ∧
      [(t []), t [.presence 0, .lineOffer 0]].map (fun u => (u.watch.tracks.get 128).presence) = [.present, .unknown] ∧
      [(t []), t [.presence 0, .lineOffer 0]].map (fun u => (u.watch.tracks.get 128).peak) = [0, 8192] := by decide +kernel

/-- R69: the emission of a tick reads the set of its tick when the write comes first, and finds an underrun when it does not. -/
theorem test_orders_of_R69 :
    let s := ((State.reset.setRing 32 (ringOf 100)).setTpt (State.reset.tpt.set 0 (record .running 100)))
    let t := fun order => after (.setTick 0 (Table.fill 16 8192) order []) s
    ((t []).tpt.get 0).take = 101 ∧ ((t [.emission]).tpt.get 0).take = 5 ∧ told (t [.emission]) = [(.ringRecentre, .takePoint 32 8)] ∧
      ((t [.emission]).rings.get 32).written = 101 := by decide +kernel

/-- R12 and R66: three ticks owed at a pulse, whose last two writes of line ring 1 come after the frame end. -/
theorem test_owed_ticks :
    let s := State.reset.setRu { Reference.start with state := .locked, ticks := 1917 }
    let t := after (.referencePulse 1920000 ⟨[Table.fill 16 1, Table.fill 16 2], []⟩ [.takePoints, .lineWrite 1, .lineWrite 1]) s
    (t.rings.cells.drop 32).map (fun g => g.written) = [3, 3, 3, 3] ∧ t.ru.frameCount = 1 ∧
      (t.rings.get 33).store.map (fun x => x.samples.get 0) = [2, 2, 1] := by decide +kernel

/-- R173: an image whose check word disagrees with its contents is not good, and the end of a write leaves one that is. -/
theorem test_check_word_of_R173 (c : ImageContents) (w : Word) (h : w ≠ Config.checkWord c) :
    ({ c with check := w } : Image).good = false ∧ c.sealed.good = true := by
  simp [Image.good, ImageContents.sealed, h]

/-- Section 2.9: FR2 and OF2 at frame line 7. -/
def lineState : State :=
  let s := State.reset.setFr 2 { Receiver.start with
    state := .locked, detected := some 0, frameOpen := true, lineCount := 6
    quads := (Receiver.start.quads.set 0 { QuadTrack.start with state := .present, basePending := false, lastCount := 9 }).set 1
      { QuadTrack.start with state := .present, basePending := false, lastCount := 3 } }
  let s := s.setFmt 2 { Formatter.start with built := Formatter.start.built.set 0 5, firstSent := Formatter.start.firstSent.set 0 true }
  { s with
    active := ⟨s.active.entries, ((s.active.modes.set 8 .embed24).set 10 .remove).set 11 .remove⟩
    mgmt := { s.mgmt with address := 4, controlFeed := 2, answerFeed := 2, answers := [⟨1, 2, .done, []⟩, ⟨2, 2, .done, []⟩] } }

/-- A SOUND packet with so many equal sets. -/
def sound (q : Quad) (count : BitVec 4) (n : Nat) : Packet :=
  makeSound q ⟨count, 0, false, BitVec.ofNat 2 n, true, Table.fill 4 true⟩ (List.replicate n (Table.fill 4 7))

def linePackets : List Packet :=
  let broadcast := makePacket (makeHeader 2 15 1) [0x0202]
  [sound 0 10 2, sound 1 5 2, sound 1 6 1, makePacket (makeHeader 2 4 2) [0x1102, 2],
    makePacket (makeHeader 4 0 2) [0x0A04, 0x0C07], { broadcast with checksum := broadcast.checksum + 1 },
    makePacket (makeHeader 6 0 0) []]

theorem test_line_of_section_2_9 :
    let t := after (.lineRecord 2 ⟨false, [9], linePackets.flatMap Packet.words⟩ []) lineState
    told t = [(.sequenceGap, .inputQuad 2 1), (.packetMisplaced, .inputQuad 2 1), (.managementChecksum, .management 2)] ∧
      (t.rings.get 8).written = 2 ∧ (t.rings.get 9).written = 2 ∧
      (t.fr.get 2).quads.cells.map (fun k => k.lastCount) = [10, 5, 0, 0] ∧
      (t.fr.get 2).claimed.cells = [true, true, false, false] ∧ (t.fmt.get 2).built.cells = [6, 0, 0, 0] ∧
      t.mgmt.answers.map (fun a => a.tag) = [1, 2, 17] ∧
      (t.fmt.get 2).line = some ⟨[9], (makeSound 0 ⟨5, 0, false, 2, true, Table.fill 4 false⟩
          [Table.fill 4 0, Table.fill 4 0]).words ++ (sound 1 5 2).words ++
        (makePacket (makeHeader 4 0 2) [0x0A04, 0x0C07]).words ++ List.replicate 22 0⟩ := by decide +kernel

/-! ## Hypotheses that are met: for each statement, a state and operands for every clause -/

theorem test_hyps_StepTakesQueueFront : ({ State.reset with pending := [.powerLoss] } : State).pending = [.powerLoss] ∧
    State.reset.pending = [] := by decide +kernel

theorem test_hyps_StartUpLoadsPart : State.reset.pins.powered = true ∧ (after .powerLoss State.reset).pins.powered = false ∧
    (after (.resetDevice 0 []) State.reset).pins.startUpDue = true ∧ (after (.resetDevice 0 []) State.reset).pins.powered = true := by
  decide +kernel

/-- The two pairs of `patched`: record 1 is the last one that is used, record 2 the first that is not. -/
theorem test_hyps_StartUpAllocatesRecords : pairNeed patched = 2 ∧ bankPairs patched = [(32, 0), (32, 8)] ∧
    pairNeed Bank.default = 0 ∧ ((loadedTable patched).get 1).state = .filling ∧ ((loadedTable patched).get 2).state = .free := by
  decide +kernel

theorem test_hyps_PowerLossHeldPinAndWriteEnd :
    let w := after (.storeFailsafe 0 [0]) State.reset
    let h := after .resetPinAssert State.reset
    (w.pins.powered = true ∧ w.store.state = .writing ∧ w.store.writing.isSome = true) ∧
      (h.pins.powered = true ∧ h.pins.resetHeld = true ∧ h.pins.startUpDue = false ∧ silenceDue h = false ∧ h.mgmt.queue = []) ∧
      (after .powerLoss State.reset).pins.powered = false ∧ State.reset.pins.startUpDue = false ∧
      State.reset.store.state ≠ .writing ∧ State.reset.quiet = true ∧ commandOf? (.flush 1 [0]) = some ⟨1, 8, [0]⟩ ∧
      commandOf? (.storeFailsafe 1 (List.replicate 40 0)) ≠ none := by decide +kernel

theorem test_hyps_EventsKeepTheRest : State.reset.quiet = true ∧ lockedState.quiet = true ∧ inFlight.quiet = true ∧
    State.reset.ce.inFlight = none ∧ State.reset.mgmt.controlFeed ≠ 1 ∧ destDomain 16 ≠ feedDomain 0 := by decide +kernel

theorem test_hyps_WrittenPacketsReadBack :
    (∀ p ∈ linePackets, p.content.length = headerLength p.header) ∧ (List.replicate 1 (Table.fill 4 (7 : Sample))).length =
      (1 : BitVec 2).toNat ∧ (List.replicate 2 (Table.fill 4 (7 : Sample))).length = (2 : BitVec 2).toNat := by decide +kernel

theorem test_hyps_TruncatedPacketEndsScan : [(0 : Word)].length ≤ headerLength 0x1001 ∧
    ¬[(0 : Word), 0].length ≤ headerLength 0x1001 ∧ (lockedState.fr.get 0).state = .locked ∧ classOf 0x1001 = .sound ∧
    headerField 0x1001 = (0 : Quad).val ∧ headerField 0x1301 = (3 : Quad).val ∧ (State.reset.fr.get 0).state ≠ .locked ∧
    classOf 0x2001 ≠ .sound ∧ 4 ≤ headerField 0x1401 := by decide +kernel

theorem test_hyps_LockedSoundIsJudged :
    ({ sound 0 1 1 with checksum := 0 } : Packet).good = false ∧ (sound 0 1 1).good = true ∧
      ((after (.lineRecord 0 ⟨false, [], (sound 0 10 1).words⟩ []) lockedState).fr.get 0).claimed.get 0 = true ∧
      (sound 0 1 0).soundHead.setCount = 0 ∧ (sound 0 1 3).soundHead.setCount = 3 ∧ (2 : Nat) ≤ 2 ∧
      (makePacket (makeHeader 1 0 7) (List.replicate 7 0x80)).good = true ∧
      headerLength (makeHeader 1 0 7) ≠ 1 + 6 * (makePacket (makeHeader 1 0 7) (List.replicate 7 0x80)).soundHead.setCount.toNat ∧
      misplaced (lockedState.fr.get 0) 3 0 (sound 0 1 2) = false := by decide +kernel

theorem test_hyps_AcceptedPacketIsCheckedAndWritten :
    let k := (lockedState.fr.get 0).quads.get 0
    k.basePending = false ∧ (11 : BitVec 4) ≠ k.lastCount + 1 ∧ (10 : BitVec 4) = k.lastCount + 1 ∧
      ((lockedState.fr.get 0).quads.get 1).basePending = true ∧ k.state = .present ∧
      ((lockedState.fr.get 0).quads.get 1).state ≠ .present ∧ (lockedState.rings.get 0).store.length ≤ 8192 ∧
      classOf (sound 3 1 1).header = .sound ∧ headerField (sound 3 1 1).header = (3 : Quad).val ∧
      4 ≤ headerField (makeHeader 1 4 7) ∧ (lockedState.fr.get 0).remembered.get 0 = none ∧
      ((remember 0 0 (sound 0 1 1) lockedState).fr.get 0).remembered.get 0 ≠ none ∧ (State.reset.fr.get 0).state = .seeking ∧
      (lockedState.fr.get 0).claimed.get 0 = false ∧ (sound 0 1 1).soundHead.setCount = 1 ∧
      (sound 0 1 2).soundHead.setCount = 2 ∧ headerLength (sound 0 1 2).header = 13 ∧
      (sound 0 1 2).checksum = checksumOf (sound 0 1 2).header (sound 0 1 2).content ∧
      (((takePacket 0 3 false (sound 0 10 2) lockedState).rings.get 0).written = 2) := by decide +kernel

theorem test_hyps_ExtraClassPacketsSorted :
    let p := makePacket (makeHeader 2 0 1) [0x0139]
    let long := makePacket (makeHeader 2 0 30) (List.replicate 30 0)
    classOf p.header = .manage ∧ headerLength p.header = 1 ∧ headerLength long.header = 30 ∧
      headerField p.header = State.reset.mgmt.address ∧ p.checksum = checksumOf p.header p.content ∧
      ({ p with checksum := 0 } : Packet).checksum ≠ checksumOf p.header p.content ∧ classOf 0x5000 = .clear ∧
      headerLength 0x5000 = 0 ∧ headerField 0x2F01 = 15 ∧ headerField 0x2101 ≠ 15 ∧ headerField 0x2101 ≠ State.reset.mgmt.address ∧
      State.reset.mgmt.address ≠ 15 ∧ (lockedState.fr.get 0).state = .locked ∧ (lockedState.fr.get 0).place = none ∧
      ((passThrough 0 p lockedState).fr.get 0).place ≠ none ∧ (State.reset.fr.get 0).state = .seeking ∧
      classOf 0x4002 = .stamp ∧ classOf 0x3002 = .answer ∧ classOf 0x6000 = .other ∧ (lockedState.fr.get 0).detected = some 0 ∧
      (makePacket 0x4002 [0x173B, 0x3B18]).good = true ∧ (makePacket 0x4002 [0x173B, 0x3B18]).stamp.inRange (rateOf 0) = true ∧
      (makePacket 0x4002 [0x173B, 0x3B19]).stamp.inRange (rateOf 0) = false ∧ (State.reset.fr.get 0).detected = none := by
  decide +kernel

theorem test_hyps_SoundSlotsAndBuiltPackets :
    let s := { lineState with fmt := lineState.fmt.set 2 { lineState.fmt.get 2 with sets := [Table.fill 16 0, Table.fill 16 0] } }
    s.active.modes.get (outQuad 2 0) = .embed24 ∧ s.active.modes.get (outQuad 2 1) = .pass ∧
      s.active.modes.get (outQuad 2 2) = .remove ∧ (lineState.fmt.get 2).sets = [] ∧ (s.fmt.get 2).sets.length = 2 ∧
      (s.fmt.get 2).phase < 5 ∧ ((soundSlots 2 3 s).get 0).isSome = true ∧ (soundSlots 2 2 s).get 0 = none := by decide +kernel

theorem test_hyps_ExtraSlotAndAnswerLayout :
    let n := lineState.setMgmt { lineState.mgmt with notice := some ⟨.clipping, .destination 0, 1⟩ }
    let p := passThrough 2 (makePacket 0x6000 []) lineState
    (p.fr.get 2).place ≠ none ∧ (lineState.fr.get 2).place = none ∧ lineState.mgmt.answerFeed ≠ 1 ∧
      lineState.mgmt.answerFeed = 2 ∧ n.mgmt.notice ≠ none ∧ lineState.mgmt.notice = none ∧ lineState.mgmt.answers ≠ [] ∧
      State.reset.mgmt.answers = [] ∧ lineState.mgmt.address < 15 ∧ (List.replicate 28 (0 : Word)).length ≤ 28 := by decide +kernel

theorem test_hyps_StoppedDomainSendsPicture :
    let s := after (.setFeed 0 [1, 0, 255, 2]) State.reset
    s.quiet = true ∧ (s.fr.get 1).state = .off ∧ (s.fr.get 0).state = .seeking ∧ Config.marker ∉ [(0 : Word), 1] := by
  decide +kernel

theorem test_hyps_RunningDomainSendsLine : lockedState.quiet = true ∧ (runningFr .settling).quiet = true ∧
    runningState .locked = true ∧ runningState .settling = true ∧ runningState .wrongFormat = true ∧
    (lockedState.fr.get 0).detected = some 0 ∧ (lockedState.fr.get 0).state ≠ .off ∧
    domainRunning lockedState (feedDomain 0) = true ∧ domainRunning lockedState (feedDomain 1) = false ∧
    embeds (lineState.active.modes.get (outQuad 2 0)) = true ∧ embeds (lineState.active.modes.get (outQuad 2 1)) = false ∧
    (lineState.fmt.get 2).sets = [] := by decide +kernel

/-- A frame is inside its format at 200 ppm and outside it one unit further, on either side. -/
theorem test_hyps_FormatArithmetic : nominalPeriod 0 = 1920000 ∧
    (List.finRange 11).all (fun fm => decide (0 < cadenceLength fm)) = true ∧
    [1919615, 1919616, 1920384, 1920385].map (matchFormat 1125) = [none, some 0, some 0, none] ∧ carryingOf 0 ≤ frameSets 0 0 ∧ ¬carryingOf 6 ≤ frameSets 6 0 ∧
    4 < cadenceLength 4 := by decide +kernel

theorem test_hyps_SeekingIdentifiesFormat :
    let r : Receiver := { Receiver.start with frameOpen := true, lineCount := 1125, candidate := some 0 }
    let s := State.reset.setFr 0 r
    let set := fun (n : Nat) (e : Option Format) => State.reset.setFr 0 { r with settleFrames := n, expected := e }
    (after (.setFeed 0 [1, 0, 255, 2]) State.reset).quiet = true ∧
      ((after (.setFeed 0 [1, 0, 255, 2]) State.reset).fr.get 1).state = .off ∧ State.reset.quiet = true ∧
      (State.reset.fr.get 0).state ≠ .off ∧ (State.reset.fr.get 0).frameOpen = false ∧ s.quiet = true ∧
      (s.fr.get 0).state = .seeking ∧ (s.fr.get 0).frameOpen = true ∧ matchFormat 1125 1 = none ∧
      matchFormat 1125 960000 = some 5 ∧ (s.fr.get 0).candidate ≠ some 5 ∧ matchFormat 1125 1920000 = some 0 ∧
      ((after (.frameBoundary 0 1920000 []) (set 0 none)).fr.get 0).state = .locked ∧
      ((after (.frameBoundary 0 1920000 []) (set 1 (some 0))).fr.get 0).state = .settling ∧
      ((after (.frameBoundary 0 1920000 []) (set 1 (some 5))).fr.get 0).state = .wrongFormat := by decide +kernel

/-- `inFlight`, with every domain but one switched. -/
def lastToSwitch (d : Domain) (s : State) : State :=
  s.setCe { Engine.start with inFlight := some ⟨patched, .cue 0, 0, 0, false, (Table.fill 9 true).set d false, 0⟩ }

/-- The commit of `s` is still in flight, and has switched domain d. -/
def switchedIn (d : Domain) (s : State) : Bool := s.ce.inFlight.any fun c => c.switched.get d

theorem test_hyps_SwitchesCommit :
    let boundary := Instr.frameBoundary 0 1920000 []
    let pulse := Instr.referencePulse 0 ⟨[], []⟩ []
    let locked := { inFlight with fr := lockedState.fr }
    let last := fun d => { lastToSwitch d State.reset with fr := lockedState.fr }
    locked.quiet = true ∧ (last 0).quiet = true ∧ locked.ce.waiting = [] ∧ switchedIn 0 locked = false ∧
      switchedIn 0 (after boundary locked) = true ∧ switchedIn 8 (after pulse locked) = true ∧
      switchedIn 0 (after (.lineRecordGap 0 []) locked) = true ∧ (after boundary (last 0)).ce.commitCount = 1 ∧
      (after pulse (last 8)).ce.lastResult = .done ∧ (after (.lineRecordGap 0 []) (last 0)).ce.inFlight = none := by
  decide +kernel

theorem test_hyps_MatchingFrameKeepsDomain : (schedule [.clips, .switch, .clips] [.takePoints, .switch, .clips]) =
      [.clips, .switch, .takePoints] ∧ List.Perm [Part.clips, .switch] [.switch, .clips] ∧ (runningFr .settling).quiet = true ∧ (runningFr .wrongFormat).quiet = true ∧
    lockedState.quiet = true ∧ (lockedState.fr.get 0).frameOpen = true ∧ (lockedState.fr.get 0).detected = some 0 ∧
    matchFormat (lockedState.fr.get 0).lineCount 1920000 = some 0 ∧ ((runningFr .settling).fr.get 0).settleRemaining = 2 ∧
    ((after (.frameBoundary 0 1920000 []) (after (.frameBoundary 0 1920000 []) (runningFr .settling))).fr.get 0).lineCount = 1 := by
  decide +kernel

theorem test_hyps_LockIsLost : runningState .locked = true ∧ matchFormat (lockedState.fr.get 0).lineCount 1 ≠ some 0 ∧
    runningState (State.reset.fr.get 0).state = false ∧ lockedState.ce.inFlight = none ∧
    (lockedState.fr.get 0).frameOpen = true := by decide +kernel

theorem test_hyps_EmptyFramesMakeQuadAbsent :
    let q := fun (s : State) => (s.fr.get 0).quads.get 0
    let s1 := closeQuadFrame 0 0 lockedState
    let c := acceptSound 0 0 (sound 0 10 1) lockedState
    (q lockedState).carried = false ∧ (q lockedState).empty = 0 ∧ (q s1).empty = 1 ∧ (q s1).state = .present ∧
      (q (closeQuadFrame 0 0 s1)).state = .absent ∧ (q c).carried = true := by decide +kernel

theorem test_hyps_CadenceTrackerFollowsPackets :
    let t : Tracker := ⟨true, none, some 4, 1602, false⟩
    Tracker.rebase.tracking = false ∧ (sound 0 1 1).soundHead.first = false ∧ (soundHead 0x0100).first = true ∧
      t.tracking = true ∧ t.framePhase = some 4 ∧ cadenceLength 4 = 5 ∧ cadenceMismatch 4 t 4 = false ∧
      cadenceMismatch 4 { t with framePhase := some 5 } 5 = true ∧ cadenceMismatch 4 { t with total := 1601 } 4 = true ∧
      cadenceMismatch 4 { t with expected := some 3 } 4 = true ∧ cadenceMismatch 4 { t with conflict := true } 4 = true := by
  decide +kernel

theorem test_hyps_SetFeedMovesReceiver : State.reset.ready = true ∧ lockedState.ready = true ∧
    (runningFr .settling).ready = true ∧ (runningFr .wrongFormat).ready = true ∧ State.reset.mgmt.controlFeed = 0 ∧
    (after (.setFeed 0 [1, 0, 255, 2]) State.reset).ready = true ∧
    ((after (.setFeed 0 [1, 0, 255, 2]) State.reset).fr.get 1).state = .off ∧ (8 : Word).toNat = 8 ∧
    some (1 : Format) ≠ (lockedState.fr.get 0).detected ∧
    (let s := (lockedState.setMgmt { State.reset.mgmt with controlFeed := 1 }).setTpt
        (State.reset.tpt.set 0 { record .running 0 with ring := 3 })
     s.ready = true ∧ ((after (.setFeed 0 [0, 1, 1, 2]) s).tpt.get 0).state = .starved ∧
       ((after (.setFeed 0 [0, 0, 255, 2]) s).tpt.get 0).state = .starved ∧ s.ce.inFlight = none) := by decide +kernel

theorem test_hyps_ReadFeedAndSetReference : State.reset.ready = true ∧ 8 ≤ (8 : Word).toNat ∧ ¬8 ≤ (7 : Word).toNat ∧
    State.reset.ru.format = 0 ∧ 11 ≤ (11 : Word).toNat ∧ numWord (10 : Format).val = 10 := by decide +kernel

theorem test_hyps_RingReturnsWrittenSets : (ringOf 3).wf = true ∧ (ringOf 8192).wf = true ∧ (8192 : Nat) + 1 ≤ 1 + 8192 ∧
    (0 : Nat) + 8192 ≤ (ringOf 8192).written := by
  refine ⟨by decide, ?_, by decide, by decide⟩
  unfold Ring.wf ringOf
  rw [List.length_replicate]
  decide

theorem test_hyps_FlushResetsRings : State.reset.ready = true ∧ (5 : Word) ≠ 0 ∧ 8 ≤ (8 : Word).toNat ∧ 36 ≤ (36 : Word).toNat ∧
    4 ≤ (4 : Word).toNat ∧ 16 ≤ (16 : Word).toNat ∧ (record .running 0).state ≠ .free ∧ trackRing 3 = 0 := by decide +kernel

/-- The occupancies at the edges of the window, and the filling ring at its edge. -/
theorem test_hyps_TakePointsJudgedAtBoundary :
    let s := fun (n : Nat) (st : TpState) => (State.reset.setRing 32 (ringOf n)).setTpt (State.reset.tpt.set 0 (record st 0))
    let took := fun (n : Nat) (st : TpState) => ((judgeTakePoints domain8 (s n st)).tpt.get 0).take
    [63, 64, 128, 129].map (fun n => (took n .running, ((judgeTakePoints domain8 (s n .running)).tpt.get 0).slipsAhead)) =
        [(0, 0), (0, 0), (0, 0), (1, 1)] ∧ took 96 .filling = 0 ∧
      ((judgeTakePoints domain8 (s 96 .filling)).tpt.get 0).state = .running ∧
      ((judgeTakePoints domain8 (s 95 .filling)).tpt.get 0).state = .filling ∧
      ((s 96 .starved).tpt.get 0).state = .starved ∧ ringFed (s 96 .filling) 32 = true ∧ ringFed (s 96 .filling) 0 = false := by
  decide +kernel

/-- An occupancy of 1 and of 0 at an emission, and of 2047 and 2048 after a write. -/
theorem test_hyps_EmissionMovesTakes :
    let s := (State.reset.setRing 32 (ringOf 100)).setTpt (State.reset.tpt.set 0 (record .running 99))
    let z := (State.reset.setRing 32 (ringOf 100)).setTpt (State.reset.tpt.set 0 (record .running 100))
    (s.tpt.get 0).domain = domain8 ∧ (s.tpt.get 0).state = .running ∧ (s.tpt.get 0).take < (s.rings.get 32).written ∧
      (z.rings.get 32).written ≤ (z.tpt.get 0).take ∧ ((emission domain8 z).tpt.get 0).take = 5 ∧
      carriedIn s.active 0 = false ∧ destDomain 0 = feedDomain 0 ∧ destDomain 0 ≠ domain8 ∧
      ((emission domain8 (s.setRamp 128 (some ⟨Entry.default, 32, 30⟩))).ramps.get 128).map (fun r => r.progress) = some 31 ∧
      ((emission domain8 (s.setRamp 128 (some ⟨Entry.default, 32, 31⟩))).ramps.get 128) = none ∧
      [30, 31].map (fun n => ((emission domain8 (s.setRamp 128 (some ⟨plain (.lineInput 0), 32, n⟩))).tpt.get 0).state) =
        [.running, .free] ∧ (s.tpt.get 1).state = .free := by decide +kernel

/-- A destination at twice its source's value: its mark is set by the first value out of range, and its emitted value is the largest sample. -/
theorem test_emission_clips :
    let s := fun (x : Sample) => ((State.reset.setRing 32 ⟨1, [⟨Table.fill 4 x, Table.fill 4 true⟩]⟩).setTpt
      (State.reset.tpt.set 0 (record .running 0)))
    let e := fun (x : Sample) => emission domain8 { s x with active :=
      ⟨Bank.default.entries.set 128 { plain (.lineInput 0) with gain := 32768 }, Bank.default.modes⟩ }
    [e 4194303, e 4194304].map (fun t => t.clips.get 128) = [false, true] ∧
      [e 4194303, e 4194304].map (fun t => t.lineOut.get 0) = [8388606, 8388607] := by decide +kernel

theorem test_hyps_WriteOverrunsRecords :
    let s := fun (n : Nat) => (State.reset.setRing 32 ⟨n, []⟩).setTpt (State.reset.tpt.set 0 (record .running 0))
    let t := fun (n : Nat) => (writeEvent 32 [⟨Table.fill 4 0, Table.fill 4 true⟩] (s n)).tpt.get 0
    (t 2046).take = 0 ∧ (t 2047).take = 1952 ∧ (t 2047).recentres = 1 := by decide +kernel

theorem test_hyps_ReadTakePointsReportsRecords : State.reset.ready = true ∧
    ([[63, 1, 0], [56, 8, 2], [0, 8, 1], [64, 1, 0], [57, 8, 0], [0, 0, 0], [0, 9, 0], [0, 1, 3]].map fun args =>
      (answered (after (.readTakePoints 0 args) State.reset)).map Prod.fst) =
      [some .done, some .done, some .done, some .refusedArgument, some .refusedArgument, some .refusedArgument,
        some .refusedArgument, some .refusedArgument] := by decide +kernel

/-- The last tick of a frame in FREE and in LOCKED. -/
def ruState (st : RuState) (ticks : Nat) : State := State.reset.setRu { Reference.start with state := st, ticks := ticks }

theorem test_hyps_SetTickWritesLineRings : (ruState .locked 1920).quiet = true ∧
    frameSets (ruState .locked 1920).ru.format 0 ≤ (ruState .locked 1920).ru.ticks ∧
    (ruState .locked 1919).ru.ticks < frameSets 0 0 ∧ (ruState .free 1919).quiet = true ∧
    (ruState .free 1919).ru.ticks + 1 = frameSets 0 0 ∧ (ruState .free 1918).ru.ticks + 1 < frameSets 0 0 ∧
    (after (.setTick 1000 (Table.fill 16 3) [] []) (ruState .free 1919)).ru.frameCount = 1 ∧
    (after (.setTick 1000 (Table.fill 16 3) [] []) (ruState .locked 1919)).ru.ticks = 1920 ∧
    (ruState .free 1920).quiet = true ∧ frameSets 0 0 ≤ (ruState .free 1920).ru.ticks ∧
    (after (.setTick 1000 (Table.fill 16 3) [] []) (ruState .free 1920)).ru.ticks = 1 := by decide +kernel

theorem test_hyps_PulsesAndTimeOutsEndFrames : State.reset.quiet = true ∧ State.reset.ru.state = .free ∧
    (ruState .locked 1919).quiet = true ∧ nominalPeriod 0 = 1920000 ∧ 2 * (0 + 959999) < nominalPeriod 0 ∧
    nominalPeriod 0 ≤ 2 * (0 + 960000) ∧ 3 * nominalPeriod 0 ≤ 2 * (0 + 2880000) ∧
    ¬3 * nominalPeriod 0 ≤ 2 * (0 + 2879999) ∧ 2 * nominalPeriod 0 ≤ 0 + 3840000 ∧
    (after (.referencePulse 960000 ⟨[], []⟩ []) (ruState .locked 1919)).ru.frameCount = 1 ∧
    (after (.referencePulse 959999 ⟨[], []⟩ []) (ruState .locked 1919)).ru.frameCount = 0 := by decide +kernel

theorem test_hyps_DestinationArithmetic :
    let s := (State.reset.setRing 32 (ringOf 100)).setTpt (State.reset.tpt.set 0 (record .running 5))
    recordOf? s (32, 0) = none ∧ recordOf? s (32, 8) = some (record .running 5) ∧
      fetch s 8 5 (.lineInput 0) = 5 ∧ fetch s 8 6 (.lineInput 0) = 0 ∧ (record .filling 0).state ≠ .running ∧
      is20 State.reset 0 = false ∧ s.ramps.get 128 = none ∧
      mixValue { s.setRamp 128 (some ⟨Entry.default, 32, 16⟩) with active :=
        ⟨Bank.default.entries.set 128 (plain (.lineInput 0)), Bank.default.modes⟩ } 128 = 3 ∧
      is20 { State.reset with active := ⟨Bank.default.entries, Bank.default.modes.set 0 .embed20⟩ } 3 = true ∧
      [8388599, 8388600, -8388608].map round20 = [8388592, 8388592, -8388608] ∧ (8 : Int) % 16 = 8 := by decide +kernel

theorem test_hyps_PresenceJudgedAndSet :
    let s := fun (p : Presence) (below peak : Nat) => State.reset.setTracks (State.reset.watch.tracks.set 128 ⟨p, below, peak⟩)
    let on := fun (t : State) => { t with active := patched }
    trackRing 0 ≠ 32 ∧ ((offerSets 32 [⟨Table.fill 4 (-9), (Table.fill 4 true).set 1 false⟩, ⟨Table.fill 4 7, Table.fill 4 true⟩]
        State.reset).watch.tracks.cells.drop 128).take 2 = [⟨.unknown, 0, 9⟩, ⟨.unknown, 0, 7⟩] ∧
      ((lockedState.fr.get 0).quads.get 0).state = .present ∧ ((lockedState.fr.get 0).quads.get 1).state ≠ .present ∧
      told (handOverClips domain8 (State.reset.setClips ((Table.fill 144 false).set 143 true))) = [(.clipping, .destination 143)] ∧
      destDomain 127 ≠ domain8 ∧
    State.reset.ready = true ∧ ((judgeTrack 128 (s .unknown 0 8192)).watch.tracks.get 128).presence = .present ∧
      ((judgeTrack 128 (s .present 123 8191)).watch.tracks.get 128).presence = .present ∧
      told (judgeTrack 128 (on (s .present 124 8191))) = [(.silence, .watchedTrack 128)] ∧
      told (judgeTrack 128 (s .present 124 8191)) = [] ∧
      ((answered (after (.setPresence 0 [127, 65535, 255]) State.reset)).map Prod.fst) = some .done ∧
      ((answered (after (.setPresence 0 [128, 0, 0]) State.reset)).map Prod.fst) = some .clamped := by decide +kernel

theorem test_hyps_MixerCheckChoosesAndReports :
    let s := { State.reset with active := patched }
    (s.cm.rounds.get 0).fresh = true ∧ ((chooseChecked 0 s).cm.rounds.get 0).checked = some 0 ∧
      ((chooseChecked 0 (s.setRound 0 { s.cm.rounds.get 0 with cursor := 1 })).cm.rounds.get 0).count = 1 ∧
      ((chooseChecked 1 s).cm.rounds.get 1).checked = none ∧ s.ready = true ∧ 2 ≤ (2 : Word).toNat ∧
      (State.reset.cm.rounds.get 0).checked = none ∧ told (emission domain8 s) = [] ∧
      (let on := emission domain8 { s with cm := ⟨s.cm.rounds, true⟩ }
       told on = [(.mixerMismatch, .destination 128)] ∧ (on.cm.rounds.get 8).mismatch = true ∧
         (emission domain8 on).log.records.map (fun r => r.repeats) = [0]) ∧
      destDomain 128 = domain8 ∧ carriedIn s.active 128 = true := by decide +kernel

theorem test_hyps_PathCheckRunsOneFrame :
    let w := after (.startPathCheck 0 [0]) lockedState
    let c := after (.frameBoundary 0 1920000 []) w
    lockedState.ready = true ∧ domainRunning lockedState (feedDomain 0) = true ∧
      domainRunning lockedState (feedDomain 1) = false ∧ 8 ≤ (8 : Word).toNat ∧ w.pc.state = .waiting ∧ w.pc.feed = 0 ∧
      (w.fr.get 0).detected = some 0 ∧ c.pc.state = .checking ∧ (c.fr.get 0).detected = some 0 ∧
      ({ Tally.clear with checked := true, sets := 1920 } : Tally).fail = false := by decide +kernel

/-- A path check on an output feed whose quad 0 embeds: a line whose packet is as asked, one that carries none where one is due, a packet on a quiet line, and no quad to check. -/
theorem test_hyps_PathCheckLine :
    let c := (lineState.setPc { PathChecker.start with state := .checking, feed := 2, total := 1920 }).setFmt 2
      { lineState.fmt.get 2 with sets := [Table.fill 16 7], built := Table.fill 4 3 }
    let c := { c with fmt := c.fmt.set 2 { c.fmt.get 2 with firstSent := Table.fill 4 false } }
    let slots := soundSlots 2 800 c
    let quad0 := fun (s : State) => s.pc.quads.get 0
    let q := quad0 (pathCheckLine 2 800 slots c)
    let bare : State := { c with active := Bank.default }
    setsOnFrameLine 0 0 800 = 2 ∧ setsOnFrameLine 0 0 6 = 1 ∧ q.checked = true ∧ q.fail = true ∧ q.sets = 1 ∧
      (quad0 (pathCheckLine 2 6 slots c)).fail = false ∧ (quad0 (pathCheckLine 2 6 (slots.set 0 none) c)).fail = true ∧
      (quad0 (pathCheckLine 2 2 slots c)).noted = true ∧
      (quad0 (pathCheckLine 2 6 slots (pathCheckLine 2 2 slots c))).fail = true ∧
      ((pathCheckLine 2 6 (slots.set 0 (some (sound 0 3 1))) c).pc.tracks.get 0) = false ∧
      ((pathCheckLine 2 6 (slots.set 0 (some (makeSound 0 (sound 0 3 1).soundHead [Table.fill 4 8]))) c).pc.tracks.get 0) = true ∧
      (pathCheckLine 2 6 slots bare).pc.state = .idle ∧ c.pc.marked = false ∧
      (pathCheckStop 2 c).pc.state = .idle ∧ (pathCheckStop 1 c).pc.state = .checking := by decide +kernel

theorem test_hyps_WriteAndReadEntry : State.reset.ready = true ∧
    ([[1, 143, 143, 0, 1, 143, 0, 1, 6001, 3, 1], [3, 0, 0, 0, 0, 255, 0, 0, 0, 0, 0], [1, 144, 0, 0, 0, 255, 0, 0, 0, 0, 0],
      [1, 0, 144, 0, 0, 255, 0, 0, 0, 0, 0], [1, 0, 255, 0, 0, 0, 0, 0, 0, 0, 0], [2, 0, 255, 7, 1, 255, 9, 1, 6000, 0, 0]].map
      fun args => (answered (after (.writeEntry 0 args) State.reset)).map fun a => (a.1, a.2.take 9)) =
      [some (.clamped, [1, 143, 143, 0, 1, 143, 0, 1, 6000]), some (.refusedArgument, []), some (.refusedArgument, []),
        some (.refusedArgument, []), some (.refusedArgument, []), some (.done, [2, 0, 255, 7, 1, 255, 0, 0, 6000])] := by
  decide +kernel

theorem test_hyps_QuadModesAndCopyBank : State.reset.ready = true ∧
    (after (.readQuadModes 9 [0, 31, 1]) State.reset).mgmt.answers = [⟨9, 20, .done, [0, 31, 1, 0, 0]⟩] ∧
    (after (.readQuadModes 9 [0, 9, 24]) State.reset).mgmt.answers = [⟨9, 20, .refusedArgument, []⟩] ∧
    (after (.readQuadModes 9 [0, 0, 25]) State.reset).mgmt.answers = [⟨9, 20, .refusedArgument, []⟩] ∧
    (after (.writeQuadMode 9 [2, 31, 3]) State.reset).mgmt.answers = [⟨9, 17, .done, [2, 31, 3, 0]⟩] ∧
    (after (.copyBank 9 [3, 2]) { State.reset with failsafe := patched }).mgmt.answers = [⟨9, 18, .done, [3, 2, 2]⟩] := by
  decide +kernel

theorem test_hyps_GuardRangesJudged :
    let fixed := { State.reset with guards := State.reset.guards.set 1 ⟨true, 3, 3, true⟩ }
    let args : List Word := [1, 1, 5, 5, 0]
    State.reset.ready = true ∧ fixed.ready = true ∧ inFlight.ready = true ∧
      (after (.setGuard 0 [1, 1, 6, 5, 0]) fixed).mgmt.answers = [⟨0, 21, .refusedArgument, []⟩] ∧
      (after (.setGuard 0 args) fixed).mgmt.answers = [⟨0, 21, .refusedFixed, []⟩] ∧
      (after (.setGuard 0 args) inFlight).mgmt.answers = [⟨0, 21, .refusedBusy, []⟩] ∧
      (after (.setGuard 0 args) State.reset).mgmt.answers = [⟨0, 21, .done, args⟩] ∧
      ((answered (after (.readGuards 0 []) fixed)).map fun a => a.2.drop 16) = some [1] := by decide +kernel

theorem test_hyps_StoreFailsafeBeginsWrite :
    let w := (after (.storeFailsafe 1 [1]) State.reset).setMgmt State.reset.mgmt
    State.reset.ready = true ∧ w.ready = true ∧ w.store.state = .writing ∧ pairNeed (bankOf w .s0) ≤ 64 ∧
      4 ≤ (4 : Word).toNat := by decide +kernel

theorem test_hyps_SwitchIsOneDomain :
    let s := { State.reset with active := patched }
    let p : Bank := ⟨patched.entries.set 128 Entry.default, patched.modes⟩
    carriedIn s.active 128 = true ∧ carriedIn p 128 = true ∧ p.entries.get 128 ≠ s.active.entries.get 128 ∧
      (p.entries.get 128).ramp ≠ .none ∧ destDomain 128 = domain8 ∧ destDomain 0 ≠ domain8 ∧
      ((switchTo domain8 true p s).ramps.get 128).isSome = true ∧
      switchedIn 0 (lastToSwitch domain8 State.reset) = true ∧ switchedIn domain8 (lastToSwitch domain8 State.reset) = false ∧
      switchAt 0 true (lastToSwitch domain8 State.reset) = lastToSwitch domain8 State.reset ∧
      domainRunning lockedState (feedDomain 0) = true ∧ domainRunning lockedState (feedDomain 1) = false := by
  decide +kernel

/-- The switch of domain 8 away from `patched` frees record 1, whose one reference it releases, or leaves it to the ramp. -/
theorem test_switch_references :
    let s := { State.reset with active := patched, tpt := loadedTable patched }
    let p := fun (c : RampCode) => (⟨patched.entries.set 128 { Entry.default with ramp := c }, patched.modes⟩ : Bank)
    (s.tpt.get 1).domain = domain8 ∧ (s.tpt.get 1).references = 1 ∧
      ((switchTo domain8 true (p .none) s).tpt.get 1).state = .free ∧
      ((switchTo domain8 true (p .short) s).tpt.get 1).references = 1 ∧
      ((switchTo domain8 true patched s).tpt.get 1) = s.tpt.get 1 ∧ (switchAt domain8 true inFlight).ce.commitCount = 0 ∧
      (switchAt domain8 true (lastToSwitch domain8 State.reset)).ce.commitCount = 1 ∧ State.reset.ce.inFlight = none := by
  decide +kernel

theorem test_hyps_CommitReservesItsPairs : pairsDistinct State.reset.tpt = true ∧ (unionPairs patched State.reset).length ≤ 64 ∧
    pairsDistinct (loadedTable patched) = true ∧ ((loadedTable patched).get 1).state ≠ .free ∧
    ((reserveFor patched State.reset.tpt).get 1).state ≠ .free ∧ (State.reset.tpt.get 1).state = .free := by decide +kernel

/-- A bank whose need is 65 pairs: one ring of its own for each of 65 destinations of four domains and domain 8. -/
def wideBank : Bank :=
  ⟨Table.tab 144 fun x => if x.val % 16 < 8 ∧ x.val < 130 then plain (.feedTrack ⟨x.val % 8, by omega⟩ 0) else Entry.default,
    Table.fill 32 .embed24⟩

/-- A STARVED record on a ring whose quad comes to be PRESENT fills; a quad that is ABSENT already has its effects no second time; the record of a pair is found, and one of another pair is not. -/
theorem test_hyps_QuadsAndRecords :
    let s := lockedState.setTpt (lockedState.tpt.set 5 { record .starved 7 with ring := 1 })
    let gone := closeQuadFrame 0 1 (closeQuadFrame 0 1 s)
    ((lockedState.fr.get 0).quads.get 1).state ≠ .present ∧ ((acceptSound 0 1 (sound 1 3 1) s).tpt.get 5).state = .filling ∧
      ((gone.fr.get 0).quads.get 1).state = .absent ∧ ((gone.fr.get 0).quads.get 1).carried = false ∧
      (closeQuadFrame 0 1 gone).tpt = gone.tpt ∧ pairsDistinct s.tpt = true ∧
      recordOf? s (1, 8) = some (s.tpt.get 5) ∧ recordOf? s (1, 7) = none := by decide +kernel

/-- A loss of lock counts a frame for a cue DUE on the feed at a boundary, and none at a gap; a notice in the extra slot leaves the AQ with the line. -/
theorem test_hyps_LossAndLine :
    let due := lockedState.setCue 1 { Cue.start with state := .due, feed := 0, framesWaited := 4 }
    let n := lockedState.setMgmt { lockedState.mgmt with notice := some ⟨.clipping, .destination 0, 1⟩ }
    due.awake = true ∧ due.ce.inFlight = none ∧ ((after (.frameBoundary 0 1 []) due).cues.get 1).framesWaited = 5 ∧
      ((after (.lineRecordGap 0 []) due).cues.get 1).framesWaited = 4 ∧ n.pc.state ≠ .checking ∧
      (sendOutput 0 3 ⟨false, [], []⟩ n).mgmt.notice = none ∧ (sendOutput 1 3 ⟨false, [], []⟩ n).mgmt.notice ≠ none := by
  decide +kernel

/-- The walk of an allocation: the new pairs go to the lowest FREE records in the order of the destinations, a held pair keeps its record and is marked, and a record whose pair is not needed keeps its mark clear. -/
theorem test_hyps_AllocationWalk :
    let s := State.reset.setTpt ((State.reset.tpt.set 0 { record .running 7 with ring := 3 }).set 2 (record .running 5))
    let t := reserveFor patched s.tpt
    pairsDistinct s.tpt = true ∧ (unionPairs patched s).length = 3 ∧ (s.tpt.get 1).state = .free ∧
      t.get 0 = s.tpt.get 0 ∧ t.get 1 = ⟨.filling, 32, 0, 0, 0, true, 0, 0, 0⟩ ∧
      t.get 2 = { s.tpt.get 2 with reserved := true } ∧ t.get 3 = s.tpt.get 3 ∧
      inUseIn patched 0 = true ∧ inUseIn patched 1 = false ∧
      [0, 31].map (fun q => quadGuarded (State.reset.guards.set 0 ⟨true, 3, 128, false⟩) q) = [true, true] ∧
      quadGuarded (State.reset.guards.set 0 ⟨true, 4, 143, false⟩) 0 = false := by decide +kernel

/-- An IDLE executor with two commands queued takes both at one event. -/
theorem test_hyps_ExecutorTakesQueue :
    let s := State.reset.setMgmt { State.reset.mgmt with queue := [⟨1, 7, []⟩, ⟨2, 57, [0]⟩] }
    s.mgmt.cx = .idle ∧ s.mgmt.discard = false ∧ (finish s).mgmt.queue = [] ∧
      (finish s).mgmt.answers = [⟨1, 7, .unknownCommand, []⟩, ⟨2, 57, .refusedArgument, []⟩] ∧
      (makeHeader 15 15 255).toNat = 65535 ∧ classOf (makeHeader 1 0 7) = .sound := by decide +kernel

theorem test_hyps_ValidationRefusesOrAccepts :
    let s := { State.reset with s0 := patched, guards := State.reset.guards.set 0 ⟨true, 128, 128, false⟩ }
    destGuarded s.guards 128 = true ∧ (snapshotFor (.command .s0) s).entries.get 128 ≠ s.active.entries.get 128 ∧
      ((validate (.command .s0) s).ce.lastResult = .refusedGuarded) ∧
      (validate .failsafe { State.reset with failsafe := wideBank }).ce.lastResult = .refusedTableFull ∧
      (validate (.cue 0) { State.reset with s0 := patched }).ce.inFlight.isSome = true ∧
      (validate (.cue 0) { lockedState with
        s0 := patched, cues := State.reset.cues.set 0 ⟨.idle, .s0, 0, ⟨0, 0, 0, 0⟩, 3, 4, true, .none⟩ }).ce.inFlight =
          some ⟨patched, .cue 0, 3, 4, true, Table.tab 9 fun d => d != 0 && d != 8, 2⟩ ∧
      told (validate (.cue 0) s) = [(.cueRefused, .cue 0)] ∧ ((validate (.cue 0) s).cues.get 0).outcome = .refusedGuarded ∧
      told (validate .failsafe { State.reset with failsafe := wideBank }) = [(.failsafeRefused, .management 0)] ∧
      (snapshotFor .failsafe { s with failsafe := patched }).entries.get 128 = s.active.entries.get 128 := by decide +kernel

theorem test_hyps_CompletionFreesRecords :
    let c : InFlight := ⟨patched, .cue 1, 0, 0, false, Table.fill 9 true, 2⟩
    State.reset.ce.waiting = [] ∧ ((completeCommit c State.reset).cues.get 1).outcome = .done ∧
      ((completeCommit { c with fireLateness := 1 } State.reset).cues.get 1).outcome = .late 1 ∧
      ((completeCommit { c with dueMark := true } State.reset).cues.get 1).outcome = .late 0 ∧
      answered (completeCommit { c with requester := .command .s0 }
        (State.reset.setMgmt { State.reset.mgmt with queue := [⟨0, 24, [1]⟩], cx := .executing })) = some (.done, [1, 1, 2, 0]) ∧
      (let w := State.reset.setCe { State.reset.ce with waiting := [.cue 0, .cue 1] }
       (completeCommit c w).ce.waiting = [.cue 1] ∧ (completeCommit c w).ce.inFlight.isSome = true ∧
       (completeCommit c { w with s0 := patched, guards := State.reset.guards.set 0 ⟨true, 128, 128, false⟩ }).ce.inFlight = none) := by
  decide +kernel

/-- A cue of feed 2, armed for 23:59:59:24. -/
def armed (s : State) : State := s.setCue 0 { Cue.start with state := .armed, feed := 2, label := ⟨23, 59, 59, 24⟩ }

theorem test_hyps_StampFiresCue : (⟨0, 0, 0, 23⟩ : Stamp).inRange 25 = true ∧ ((armed inFlight).cues.get 0).state = .armed ∧
    lateness 25 ⟨0, 0, 0, 23⟩ ⟨23, 59, 59, 24⟩ = 24 ∧ lateness 25 ⟨0, 0, 0, 24⟩ ⟨23, 59, 59, 24⟩ = 25 ∧
    (armed inFlight).ce.inFlight.isSome = true ∧ (armed State.reset).ce.inFlight = none ∧
    ((evaluateCue 2 25 ⟨0, 0, 0, 23⟩ 0 (armed inFlight)).cues.get 0).state = .due ∧
    ((evaluateCue 2 25 ⟨0, 0, 0, 24⟩ 0 (armed inFlight)).cues.get 0).state = .armed := by decide +kernel

theorem test_hyps_CommitCommandMakesRequest :
    let s := { State.reset with s0 := patched }
    let g := { s with guards := State.reset.guards.set 0 ⟨true, 128, 128, false⟩ }
    let w := { State.reset with s0 := wideBank }
    s.ready = true ∧ inFlight.ready = true ∧ g.ready = true ∧ w.ready = true ∧
      answered (after (.commit 0 [1]) g) = some (.refusedGuarded, [1, 128, 255]) ∧
      answered (after (.commit 0 [1]) w) = some (.refusedTableFull, [1, 66, 0]) ∧
      (after (.commit 0 [1]) s).ce.inFlight.isSome = true ∧ (after (.commit 0 [1]) inFlight).ce.waiting = [.command .s0] ∧
      (3 : Word) ≠ 1 ∧ (3 : Word) ≠ 2 := by decide +kernel

theorem test_hyps_CueCommands : State.reset.ready = true ∧
    answered (after (.armCue 0 [1, 2, 7, 23, 59, 59, 59]) State.reset) = some (.done, [1, 2, 7, 23, 59, 59, 59, 0, 0]) ∧
    answered (after (.armCue 0 [0, 1, 0, 24, 0, 0, 0]) State.reset) = some (.refusedArgument, []) ∧
    answered (after (.disarmCue 0 [1]) State.reset) = some (.done, [0, 1, 0, 0, 0, 0, 0, 0, 0]) ∧ 2 ≤ (2 : Word).toNat := by
  decide +kernel

/-- A log of eight records. -/
def fullLog : FaultLog := ⟨(List.finRange 8).map fun f => ⟨.lockLost, .inputFeed f, 0, 255⟩, false, true, true⟩

theorem test_hyps_FaultIsCollapsedAppendedOrLost : fullLog.wf = true ∧ fullLog.records.length = 8 ∧
    (report .lockLost (.inputFeed 7) (State.reset.setLog fullLog)).log = fullLog ∧
    (report .clipping (.destination 0) (State.reset.setLog fullLog)).log = { fullLog with overflow := true } ∧
    (report .clipping (.destination 0) State.reset).log.pending = true ∧
    (report .clipping (.destination 0) (State.reset.setLog { FaultLog.start with masked := false })).mgmt.notice =
      some ⟨.clipping, .destination 0, 1⟩ := by decide +kernel

theorem test_hyps_ReadAndClearFaults :
    let s := State.reset.setLog fullLog
    s.ready = true ∧ answered (after (.readFaults 0 [8, 4]) s) = some (.done, [8, 0, 1, 1, 8, 1, 0x0502, 7, 255, 0, 0]) ∧
      ([[0, 1], [9, 1], [1, 0], [1, 5]].map fun args => answered (after (.readFaults 0 args) s)) =
        List.replicate 4 (some (.refusedArgument, [])) ∧ answered (after (.clearFaults 0 [8]) s) = some (.done, [1, 7]) ∧
      answered (after (.clearFaults 0 [0]) s) = some (.done, [8, 0]) ∧
      answered (after (.clearFaults 0 [9]) s) = some (.refusedArgument, []) := by decide +kernel

theorem test_hyps_NoticesFollowMask :
    let s := State.reset.setLog fullLog
    let n := s.setMgmt { s.mgmt with notice := some ⟨.clipping, .destination 0, 1⟩ }
    s.ready = true ∧ s.log.records.getLast?.isSome = true ∧ s.log.pending = true ∧ s.mgmt.notice = none ∧
      answered (after (.setNotices 0 [0]) s) = some (.done, [0, 0, 8]) ∧
      answered (after (.setNotices 0 []) s) = some (.done, [1, 1, 8]) ∧ 2 ≤ (2 : Word).toNat ∧
      (n.fr.get 0).place = none ∧ n.mgmt.answerFeed = 0 ∧ n.mgmt.notice ≠ none ∧ n.log.masked = true := by decide +kernel

theorem test_hyps_CodesAndWordCountsJudged : State.reset.ready = true ∧ (7 : Byte) ∉ tableCodes ∧
    (List.replicate 29 (0 : Word)).length ≤ 29 ∧ answered (after (.unknownCommand 7 0 []) State.reset) = some (.unknownCommand, []) ∧
    answered (after (.setFeed 0 [1, 1, 255]) State.reset) = some (.refusedArgument, []) ∧
    answered (after (.flush 0 []) State.reset) = some (.refusedArgument, []) := by decide +kernel

theorem test_hyps_QueueLimitAndClearPacket :
    let c : Command := ⟨0, 57, []⟩
    let held := fun n => State.reset.setMgmt { State.reset.mgmt with answers := List.replicate n ⟨0, 57, .done, []⟩ }
    let busy := after (.commit 0 [1]) State.reset
    (held 31).mgmt.queue.length + (held 31).mgmt.answers.length < 32 ∧
      32 ≤ (held 32).mgmt.queue.length + (held 32).mgmt.answers.length ∧
      told (offerCommand c (held 32)) = [(.queueOverrun, .management 0)] ∧ busy.awake = true ∧ busy.mgmt.cx ≠ .idle ∧
      State.reset.awake = true ∧ State.reset.mgmt.cx = .idle ∧ (clearPacket busy).mgmt.discard = true ∧
      (clearPacket busy).mgmt.queue.length = 1 ∧ commandOf? (.unknownCommand 7 1 [2]) = some ⟨1, 7, [2]⟩ ∧
      (after (.unknownCommand 7 1 [2]) busy).mgmt.queue = [⟨0, 24, [1]⟩, ⟨1, 7, [2]⟩] := by decide +kernel

theorem test_hyps_SetControlAndSilenceTimer :
    let off := after (.setFeed 0 [1, 0, 255, 2]) State.reset
    let due := State.reset.setMgmt { State.reset.mgmt with timerRunning := true, silenceTime := .s2 }
    let asks := due.setMgmt { due.mgmt with silenceAction := .failsafe, silenceTime := .off }
    let busy := asks.setCe inFlight.ce
    let waits := busy.setCe { busy.ce with waiting := [.failsafe] }
    (after .controlSilence asks).ce.inFlight.map (fun c => c.requester) = some .failsafe ∧
      (after .controlSilence busy).ce.waiting = [.failsafe] ∧ (after .controlSilence waits).ce.waiting = [.failsafe] ∧
      (after (.commit 0 [1]) State.reset).mgmt.cx ≠ .idle ∧
    State.reset.ready = true ∧ (off.setMgmt State.reset.mgmt).ready = true ∧ (off.fr.get 1).state = .off ∧
      (State.reset.fr.get 1).state ≠ .off ∧ 4 ≤ (4 : Word).toNat ∧ State.reset.awake = true ∧ due.pins.powered = true ∧
      due.pins.startUpDue = false ∧ due.mgmt.timerRunning = true ∧ due.mgmt.remaining = 0 ∧ due.mgmt.queue = [] ∧
      (after (.setControl 0 [1, 2, 3, 1]) State.reset).mgmt.remaining = 1500 ∧
      told (after .controlSilence due) = [(.controlSilence, .management 0)] ∧ State.reset.mgmt.timerRunning = false ∧
      (after (.referencePulse 0 ⟨[], []⟩ []) (after (.setControl 0 [1, 2, 3, 1]) State.reset)).mgmt.remaining = 1499 := by
  decide +kernel

theorem test_hyps_ReadAndResetDevice : State.reset.ready = true ∧
    answered (after (.readDevice 0 []) State.reset) =
      some (.done, [0, 0, 0, 0, 0, 0, 0, 1, 0, 0, 0, 0, 0, 0, 0, 0, 0, 0, 255, 0, 0, 0]) ∧
    (after (.resetDevice 0 []) State.reset).mgmt.cx = .stopped := by decide +kernel

/-! Events that meet a command in flight: its completion, its abort, and its answer. -/

/-- `lockedState`, with a path check of feed 0 that waits for the next boundary, at an EXECUTING CX. -/
def pathWaits : State := after (.startPathCheck 0 [0]) lockedState

/-- `lockedState`, with a COMMIT command in flight that every domain but d has switched. -/
def commandLast (d : Domain) : State :=
  (lockedState.setMgmt { lockedState.mgmt with queue := [⟨7, 24, [1]⟩], cx := .executing }).setCe
    { Engine.start with inFlight := some ⟨patched, .command .s0, 0, 0, false, (Table.fill 9 true).set d false, 0⟩ }

theorem test_hyps_PathCheckInFlight :
    let boundary := Instr.frameBoundary 0 1920000 []
    let again := fun (s : State) => after boundary (s.setFr 0 { s.fr.get 0 with lineCount := 1125 })
    let checks := after boundary pathWaits
    pathWaits.quiet = true ∧ pathWaits.mgmt.cx = .executing ∧ pathWaits.pc.state = .waiting ∧ pathWaits.pc.feed = 0 ∧
      checks.quiet = true ∧ checks.pc.state = .checking ∧ checks.pc.total = frameSets 0 0 ∧
      (again checks).pc.state = .idle ∧ (again checks).mgmt.cx = .idle ∧ (again checks).mgmt.queue = [] ∧
      (answered (again checks)).map Prod.fst = some .done ∧ (after (.lineRecordGap 0 []) checks).pc.state = .idle ∧
      (after (.lineRecordGap 0 []) pathWaits).mgmt.answers.length = 1 ∧
      (after (.lineRecord 1 ⟨true, [], []⟩ []) checks).mgmt.cx = .executing ∧
      (after (.setTick 1000 (Table.fill 16 3) [] []) checks).pc = checks.pc := by decide +kernel

theorem test_hyps_CommitCommandInFlight :
    let boundary := Instr.frameBoundary 0 1920000 []
    let done := some (Verdict.done, [(1 : Word), 1, 0, 0])
    (commandLast 0).quiet = true ∧ (commandLast 8).quiet = true ∧ (commandLast 0).ce.waiting = [] ∧
      (commandLast 0).mgmt.cx = .executing ∧ switchedIn 0 (commandLast 0) = false ∧
      answered (after boundary (commandLast 0)) = done ∧ (after boundary (commandLast 0)).mgmt.queue = [] ∧
      answered (after (.lineRecordGap 0 []) (commandLast 0)) = done ∧
      answered (after (.referencePulse 0 ⟨[], []⟩ []) (commandLast 8)) = done ∧
      (after boundary (commandLast 8)).mgmt.cx = .executing ∧ (after boundary (commandLast 8)).mgmt.answers = [] := by
  decide +kernel

/-- A frame end of domain 8 that completes a COMMIT and ends the silence (log entry 39): a queued CLEAR FAULTS is taken before the expiry, which the next event takes; a queued SET CONTROL takes it first, and restarts the timer. -/
theorem test_silenceEndsAtCompletion :
    let ended := fun (c : Command) =>
      let s := (commandLast 8).setMgmt { (commandLast 8).mgmt with
        queue := [⟨7, 24, [1]⟩, c], silenceTime := .s2, timerRunning := true, remaining := 1 }
      after (.referencePulse 0 ⟨[], []⟩ []) s
    let cleared := ended ⟨8, 49, [0]⟩
    let set := ended ⟨8, 56, [0, 0, 0, 0]⟩
    cleared.ce.inFlight = none ∧ cleared.mgmt.queue = [] ∧ told cleared = [] ∧ silenceDue cleared = true ∧
      told (after .controlSilence cleared) = [(.controlSilence, .management 0)] ∧
      told set = [(.referenceRestored, .reference), (.controlSilence, .management 0)] ∧ silenceDue set = false := by
  decide +kernel

/-- The entry into LOCKED, by the last frame of SETTLING and by a format seen twice with settle frames 0: a ring of the feed that was written to is reset, and one of its records FILLING. -/
theorem test_hyps_EnteredLocked :
    let boundary := Instr.frameBoundary 0 1920000 []
    let fed := fun (r : Receiver) => (((State.reset.setFr 0 r).setRing 2 (ringOf 5)).setTpt
      (State.reset.tpt.set 0 { record .starved 4 with ring := 2 })).setRing 4 (ringOf 5)
    let settles := fed { (runningFr .settling).fr.get 0 with settleRemaining := 1 }
    let seen := fed { Receiver.start with frameOpen := true, lineCount := 1125, candidate := some 0, settleFrames := 0 }
    let ok := fun (t : State) => decide ((t.fr.get 0).state = .locked ∧ t.rings.get 2 = ⟨0, []⟩ ∧ t.rings.get 4 = ringOf 5 ∧
      (t.tpt.get 0).state = .filling ∧ (t.fr.get 0).quads.cells.all (fun k => k.basePending && k.tracker == Tracker.rebase) = true)
    settles.quiet = true ∧ seen.quiet = true ∧ ((settles.fr.get 0).settleRemaining ≤ 1) ∧ settles.ce.inFlight = none ∧
      ok (after boundary settles) = true ∧ ok (after boundary seen) = true ∧ ok (boundaryPart 0 0 .settle settles) = true := by
  decide +kernel

/-- A line with packets: one sound packet, well placed and accepted; and an emission before or after a packet, as the command says. -/
theorem test_hyps_LineOfPackets :
    let p := sound 0 10 2
    let r : LineRecord := ⟨false, [], p.words ++ List.replicate 3 0⟩
    let t := after (.lineRecord 0 r []) lockedState
    let s := lockedState.setFr 0 { lockedState.fr.get 0 with lineCount := 6 }
    let u := after (.lineRecord 0 r [0, 1]) s
    p.content.length = headerLength p.header ∧ classOf p.header = .sound ∧ headerField p.header = (0 : Quad).val ∧
      p.checksum = checksumOf p.header p.content ∧ p.soundHead.setCount = 2 ∧
      headerLength p.header = 1 + 6 * p.soundHead.setCount.toNat ∧ 2 < (lockedState.fr.get 0).lineCount + 1 ∧
      ((lockedState.fr.get 0).quads.get 0).state = .present ∧ (t.rings.get 0).written = 2 ∧
      ((t.fr.get 0).quads.get 0).lastCount = 10 ∧ scanLine r.blanking = [.packet p] ∧
      lineEmissions 0 7 [0, 1] s = [0, 1].take (setsOnFrameLine 0 0 7) ∧ (u.fmt.get 0).sets.length = setsOnFrameLine 0 0 7 ∧
      readLine 0 7 false [.packet p] 0 [0, 1] s = emitOnce 0 (takeScanned 0 7 false (.packet p) (emitOnce 0 s)) ∧
      ringFed lockedState (feedRing 0 0) = true ∧ ringFed (closeQuadFrame 0 0 (closeQuadFrame 0 0 lockedState)) (feedRing 0 0) = false ∧
      ringFed (runningFr .settling) (feedRing 0 0) = false ∧ ringFed State.reset (lineRing 3) = true := by decide +kernel

/-- The invariants hold of a part in use: a feed locked and written to, a record running, a commit in flight, and a step that goes on. -/
theorem test_hyps_Invariants :
    let s := { after (.commit 0 [1]) { lockedState with s0 := patched } with
      log := fullLog, pending := [.lineRecord 0 ⟨false, [], (sound 0 10 2).words⟩ []] }
    s.log.wf = true ∧ s.mgmt.heldFits = true ∧ s.mgmt.executorFits = true ∧ s.flightFits = true ∧ s.ce.orderFits = true ∧
      s.ringsFit = true ∧ s.takesFit = true ∧ pairsDistinct s.tpt = true ∧ s.recordsUsed = true ∧ s.banksFit = true ∧
      s.guardsFit = true ∧ s.watch.settingsFit = true ∧ s.store.fits = true ∧ s.feedsFit = true ∧ s.ce.inFlight.isSome = true ∧
      (match step s with
        | .next t => t.ringsFit && t.feedsFit && t.recordsUsed && decide ((t.rings.get 0).written = 2)
        | .fault _ | .refused _ => false) = true := by decide +kernel

end Sys2Proof.Tests
end

section
/-! PROOF. READ FEED and SET REFERENCE of a ready part (R16, R18, R19): what each command's act answers, and the row's step from it. -/

namespace Sys2Proof

namespace Table

/-- The cells are what the places give, in ascending order. -/
theorem cells_eq_map_get {n : Nat} {α : Type} (t : Table n α) : t.cells = (List.finRange n).map t.get :=
  List.ext_getElem (by simp [t.size]) fun i _ _ => by simp [get_eq_getElem]

end Table

namespace Machine

/-! ## The state in which a command is judged -/

section

variable {s : State} (h : s.awake = true) (c : Command)
include h

theorem judging_fr_of_awake : (s.judging c).fr = s.fr := by
  obtain ⟨m, hm⟩ := judging_of_awake h c
  simp [hm]

theorem judging_fmt_of_awake : (s.judging c).fmt = s.fmt := by
  obtain ⟨m, hm⟩ := judging_of_awake h c
  simp [hm]

theorem judging_ru_of_awake : (s.judging c).ru = s.ru := by
  obtain ⟨m, hm⟩ := judging_of_awake h c
  simp [hm]

end

/-! ## One argument word -/

theorem length_singleton_le_maxArgs (w : Word) : [w].length ≤ Config.maxArgs := by
  simp [Config.maxArgs]

/-! ## READ FEED (R18) -/

theorem exec_readFeed (tag : Byte) (args : List Word) (s : State) :
    exec (.readFeed tag args) s = .next (manageRow 2 tag args s) := rfl

theorem actReadFeed_of_feed (f : Feed) (s : State) :
    actReadFeed [numWord f.val] s = .answered .done (feedWords s f) s := by
  simp [actReadFeed, index?_numWord 8 (by norm_num) f]

theorem actReadFeed_of_range {w : Word} (hw : 8 ≤ w.toNat) (s : State) : actReadFeed [w] s = refusedArgument s := by
  simp [actReadFeed, index?_none hw]

theorem actReadFeed_of_count {args : List Word} (hc : args.length ≠ 1) (s : State) :
    actReadFeed args s = refusedArgument s := by
  match args with
  | [] => rfl
  | [_] => exact absurd rfl hc
  | _ :: _ :: _ => rfl

/-- The words of READ FEED, the four quad states written out by their places. -/
theorem feedWords_eq (s : State) (f : Feed) :
    let r := s.fr.get f
    feedWords s f = [flagWord r.enabled, frStateCode r.state, formatWord r.expected, numWord r.settleFrames,
      numWord r.settleRemaining, formatWord r.detected, quadStateCode (r.quads.get 0).state,
      quadStateCode (r.quads.get 1).state, quadStateCode (r.quads.get 2).state, quadStateCode (r.quads.get 3).state,
      numWord (s.fmt.get f).phase] := by
  simp only [feedWords, Table.cells_eq_map_get]
  rfl

theorem feedWords_judging {s : State} (h : s.awake = true) (c : Command) (f : Feed) :
    feedWords (s.judging c) f = feedWords s f := by
  rw [feedWords, judging_fr_of_awake h, judging_fmt_of_awake h, feedWords]

/-- An accepted READ FEED changes nothing but the timer and the answer (R18). -/
theorem exec_readFeed_of_feed (tag : Byte) (f : Feed) {s : State} (h : s.ready = true) :
    exec (.readFeed tag [numWord f.val]) s =
      .next ((restartTimer s).answering tag 2 .done (feedWords s f)) := by
  rw [exec_readFeed, manageRow_answers (r := .readFeed) _ BesideMgmt.id h (length_singleton_le_maxArgs _) rfl]
  rw [act, actReadFeed_of_feed, feedWords_judging (awake_of_ready h)]

theorem exec_readFeed_refused (tag : Byte) {args : List Word} (hn : args.length ≤ Config.maxArgs)
    (ha : ∀ x, actReadFeed args x = refusedArgument x) {s : State} (h : s.ready = true) :
    exec (.readFeed tag args) s = .next ((restartTimer s).answering tag 2 .refusedArgument []) := by
  rw [exec_readFeed, manageRow_refused (r := .readFeed) h hn rfl ha]

/-! ## SET REFERENCE (R19) -/

theorem exec_setReference (tag : Byte) (args : List Word) (s : State) :
    exec (.setReference tag args) s = .next (manageRow 3 tag args s) := rfl

theorem actSetReference_of_format (fm : Format) (s : State) :
    let t := s.setRu { s.ru with pendingFormat := pendingAfter s.ru fm }
    actSetReference [numWord fm.val] s = .answered .done (referenceWords t) t := by
  simp [actSetReference, index?_numWord 11 (by norm_num) fm]

theorem actSetReference_of_range {w : Word} (hw : 11 ≤ w.toNat) (s : State) :
    actSetReference [w] s = refusedArgument s := by
  simp [actSetReference, index?_none hw]

theorem actSetReference_of_count {args : List Word} (hc : args.length ≠ 1) (s : State) :
    actSetReference args s = refusedArgument s := by
  match args with
  | [] => rfl
  | [_] => exact absurd rfl hc
  | _ :: _ :: _ => rfl

/-- The words of SET REFERENCE are those of the RU alone. -/
theorem referenceWords_setRu (s : State) (r : Reference) :
    referenceWords (s.setRu r) = [ruStateCode r.state, numWord r.format.val, formatWord r.pendingFormat,
      r.frameCount.extractLsb' 16 16, r.frameCount.extractLsb' 0 16] := rfl

theorem besideMgmt_setRu (r : Reference) : BesideMgmt (·.setRu r) := fun _ _ => rfl

/-- An accepted SET REFERENCE changes the pending format alone, and reports the RU as it then stands (R19). -/
theorem exec_setReference_of_format (tag : Byte) (fm : Format) {s : State} (h : s.ready = true) :
    let p := pendingAfter s.ru fm
    exec (.setReference tag [numWord fm.val]) s =
      .next (((restartTimer s).setRu { s.ru with pendingFormat := p }).answering tag 3 .done
        [ruStateCode s.ru.state, numWord s.ru.format.val, formatWord p, s.ru.frameCount.extractLsb' 16 16,
          s.ru.frameCount.extractLsb' 0 16]) := by
  intro p
  rw [exec_setReference, manageRow_answers (r := .setReference) _
    (besideMgmt_setRu { s.ru with pendingFormat := p }) h (length_singleton_le_maxArgs _) rfl]
  rw [act, actSetReference_of_format, judging_ru_of_awake (awake_of_ready h), referenceWords_setRu]

theorem exec_setReference_refused (tag : Byte) {args : List Word} (hn : args.length ≤ Config.maxArgs)
    (ha : ∀ x, actSetReference args x = refusedArgument x) {s : State} (h : s.ready = true) :
    exec (.setReference tag args) s = .next ((restartTimer s).answering tag 3 .refusedArgument []) := by
  rw [exec_setReference, manageRow_refused (r := .setReference) h hn rfl ha]

/-! ## The statement -/

/-- Settles O23: the codes of R16 are read off their definitions; each form of the two commands is a management row of a ready part whose act answers at once. -/
theorem readFeedAndSetReference : Obligations.ReadFeedAndSetReference := by
  unfold Obligations.ReadFeedAndSetReference
  refine ⟨⟨rfl, rfl, rfl, rfl, rfl, fun _ => rfl⟩, ?_⟩
  intro tag s h
  refine ⟨?_, ?_, ?_, ?_, ?_, ?_⟩
  · intro f
    rw [exec_readFeed_of_feed tag f h, feedWords_eq]
  · exact fun w hw => exec_readFeed_refused tag (length_singleton_le_maxArgs w) (actReadFeed_of_range hw) h
  · exact fun args hn hc => exec_readFeed_refused tag hn (actReadFeed_of_count hc) h
  · exact fun args hn hc => exec_setReference_refused tag hn (actSetReference_of_count hc) h
  · exact fun fm => exec_setReference_of_format tag fm h
  · exact fun w hw => exec_setReference_refused tag (length_singleton_le_maxArgs w) (actSetReference_of_range hw) h

end Machine

end Sys2Proof
end

section
/-! PROOF. A SOUND packet in LOCKED is judged for its checksum and then for its placement (R24, R25): what each judgment leaves of the FR, and what an accepted packet leaves of the line's claims. -/

namespace Sys2Proof

namespace Machine

/-! ## What the updates of one quad leave in the receivers -/

section

variable (f : Feed) (q : Quad) (s : State)

@[simp] theorem changeQuad_fr_same (g : QuadTrack → QuadTrack) :
    (changeQuad f q g s).fr.get f = { s.fr.get f with quads := (s.fr.get f).quads.modify q g } := by
  simp [changeQuad]

theorem changeQuad_fr_other (g : QuadTrack → QuadTrack) {f' : Feed} (h : f' ≠ f) :
    (changeQuad f q g s).fr.get f' = s.fr.get f' := by
  simp [changeQuad, Table.get_set_other _ _ _ _ h.symm]

@[simp] theorem claim_fr_same :
    (claim f q s).fr.get f = { s.fr.get f with claimed := (s.fr.get f).claimed.set q true } := by
  simp [claim]

theorem claim_fr_other {f' : Feed} (h : f' ≠ f) : (claim f q s).fr.get f' = s.fr.get f' := by
  simp [claim, Table.get_set_other _ _ _ _ h.symm]

end

/-! ## An accepted packet claims nothing by itself: the claims of the line stand as they were -/

section

variable (f : Feed) (q : Quad) (s : State)

theorem makePresent_claimed : ((makePresent f q s).fr.get f).claimed = (s.fr.get f).claimed := by
  unfold makePresent
  split
  · rfl
  · rw [(frame_resetRing _ _).fr rfl, changeQuad_fr_same]

theorem checkSequence_claimed (count : BitVec 4) :
    ((checkSequence f q count s).fr.get f).claimed = (s.fr.get f).claimed := by
  simp only [checkSequence, changeQuad_fr_same]
  split <;> simp

theorem acceptSound_claimed (p : Packet) : ((acceptSound f q p s).fr.get f).claimed = (s.fr.get f).claimed := by
  rw [acceptSound, changeQuad_fr_same, (frame_offerSets _ _ _).fr rfl, (frame_writeEvent _ _ _).fr rfl,
    makePresent_claimed]

end

/-! ## The judgment of the placement (R25) -/

theorem soundLengthAgrees_eq_false_iff (p : Packet) : p.soundLengthAgrees = false ↔
    p.soundHead.setCount = 0 ∨ p.soundHead.setCount = 3 ∨
      headerLength p.header ≠ 1 + 6 * p.soundHead.setCount.toNat := by
  have count : ∀ n : BitVec 2, (n.toNat = 1 ∨ n.toNat = 2) ↔ ¬(n = 0 ∨ n = 3) := by decide
  rw [← Bool.not_eq_true, Packet.soundLengthAgrees, Bool.and_eq_true, Bool.or_eq_true, beq_iff_eq, beq_iff_eq,
    beq_iff_eq, count]
  tauto

theorem misplaced_iff (r : Receiver) (line : Nat) (q : Quad) (p : Packet) : misplaced r line q p = true ↔
    r.claimed.get q = true ∨ p.soundHead.setCount = 0 ∨ p.soundHead.setCount = 3 ∨
      headerLength p.header ≠ 1 + 6 * p.soundHead.setCount.toNat ∨ line ≤ 2 := by
  rw [misplaced, Bool.or_eq_true, Bool.or_eq_true, Bool.not_eq_true', decide_eq_true_eq,
    soundLengthAgrees_eq_false_iff]
  tauto

/-! ## The three ways of a SOUND packet in LOCKED -/

section

variable (f : Feed) (line : Nat) (q : Quad) (p : Packet) (s : State)

theorem lockedSound_of_bad (hp : p.good = false) : lockedSound f line q p s = discardSound f q s := by
  simp [lockedSound, hp]

theorem lockedSound_of_misplaced (hp : p.good = true) (hm : misplaced (s.fr.get f) line q p = true) :
    lockedSound f line q p s = report .packetMisplaced (.inputQuad f q) (claim f q s) := by
  simp [lockedSound, hp, hm]

theorem lockedSound_of_placed (hp : p.good = true) (hm : misplaced (s.fr.get f) line q p = false) :
    lockedSound f line q p s = acceptSound f q p (checkSequence f q p.soundHead.count (claim f q s)) := by
  simp [lockedSound, hp, hm]

theorem discardSound_fr : (discardSound f q s).fr =
    (changeQuad f q (fun k => { k with basePending := true, tracker := Tracker.rebase }) s).fr := by
  simp [discardSound]

/-- A discarded packet's fault is recorded as if the FR had not changed: the log does not see the FR. -/
theorem discardSound_log : (discardSound f q s).log = (report .soundChecksum (.inputQuad f q) s).log :=
  report_log_congr _ _ rfl rfl rfl

/-- Whether it is misplaced or accepted, a packet with a good checksum claims the line for its quad (R25). -/
theorem lockedSound_claims (hp : p.good = true) :
    ((lockedSound f line q p s).fr.get f).claimed = (s.fr.get f).claimed.set q true := by
  cases hm : misplaced (s.fr.get f) line q p with
  | true => simp [lockedSound_of_misplaced f line q p s hp hm]
  | false =>
    rw [lockedSound_of_placed f line q p s hp hm, acceptSound_claimed, checkSequence_claimed, claim_fr_same]

end

/-! ## The statement -/

/-- Settles O9: the packet goes one of three ways, by its checksum and then by its placement; discarding and misplacing change the FR's own fields and the log, and the blocks beside these by their frames. -/
theorem lockedSoundIsJudged : Obligations.LockedSoundIsJudged := by
  unfold Obligations.LockedSoundIsJudged
  refine ⟨?bad, ?good⟩
  case bad =>
    intro f line q p s hp t
    have ht : t = discardSound f q s := lockedSound_of_bad f line q p s hp
    have frame := frame_discardSound s f q
    rw [ht, discardSound_fr, changeQuad_fr_same]
    refine ⟨?_, ?_, rfl, ?_, frame.rings rfl, frame.tpt rfl, frame.watch rfl, discardSound_log f q s⟩
    · rw [Table.get_modify_same, Tracker.rebase]
    · exact fun q' hq => Table.get_modify_other _ _ _ _ hq.symm
    · exact fun g hg => changeQuad_fr_other f q s _ hg
  case good =>
    intro f line q p s hp t
    refine ⟨lockedSound_claims f line q p s hp, fun hm => ?_⟩
    have ht : t = report .packetMisplaced (.inputQuad f q) (claim f q s) :=
      lockedSound_of_misplaced f line q p s hp ((misplaced_iff _ _ _ _).mpr hm)
    have hfr : t.fr = (claim f q s).fr := by rw [ht]; exact (frame_report _ _ _).fr rfl
    have frame : Frame { fr := true, log := true, mgmt := true } s t :=
      ht ▸ (frame_claim s f q).mono.trans (frame_report _ _ _).mono
    refine ⟨?_, ?_, ?_, frame.rings rfl, frame.tpt rfl, frame.watch rfl⟩
    · rw [ht]
      exact report_log_congr _ _ rfl rfl rfl
    · rw [hfr, claim_fr_same]
    · exact fun g hg => by rw [hfr, claim_fr_other f q s hg]

end Machine

end Sys2Proof
end

section
/-! PROOF. FLUSH of a ready part (R70, R71): which forms name rings, what each form answers, and what the reset of one ring leaves (R52, R139). -/

namespace Sys2Proof

namespace Machine

/-- Every form of FLUSH and of READ TAKE POINTS that is not refused by its count fits a packet. -/
theorem length_le_maxArgs_of_le_three {args : List Word} (h : args.length ≤ 3) : args.length ≤ Config.maxArgs :=
  h.trans (by decide)

/-! ## The rings a FLUSH names (R70) -/

theorem flushTarget?_all : flushTarget? [0] = some (0, List.finRange 36) := rfl

theorem flushTarget?_feed (f : Feed) : flushTarget? [1, numWord f.val] =
    some (1, [feedRing f 0, feedRing f 1, feedRing f 2, feedRing f 3]) := by
  rw [flushTarget?, if_pos rfl, index?_numWord 8 (by norm_num)]
  rfl

theorem flushTarget?_ring (r : RingNo) : flushTarget? [2, numWord r.val] = some (2, [r]) := by
  rw [flushTarget?, if_neg (by decide), if_pos rfl, index?_numWord 36 (by norm_num)]
  rfl

theorem flushTarget?_track (f : Feed) (k : Fin 16) : flushTarget? [3, numWord f.val, numWord k.val] =
    some (2, [feedRing f ⟨k.val / 4, by omega⟩]) := by
  rw [flushTarget?, if_pos rfl, index?_numWord 8 (by norm_num), index?_numWord 16 (by norm_num)]

theorem flushTarget?_line (n : LineQuad) : flushTarget? [4, numWord n.val] = some (2, [lineRing n]) := by
  rw [flushTarget?, if_neg (by decide), if_neg (by decide), if_pos rfl, index?_numWord 4 (by norm_num)]
  rfl

/-! ## The forms that name none (R71) -/

theorem flushTarget?_one_none {g : Word} (hg : g ≠ 0) : flushTarget? [g] = none := by
  rw [flushTarget?, if_neg hg]

theorem flushTarget?_two_none {g a : Word}
    (h : (g = 1 ∧ 8 ≤ a.toNat) ∨ (g = 2 ∧ 36 ≤ a.toNat) ∨ (g = 4 ∧ 4 ≤ a.toNat) ∨ (g ≠ 1 ∧ g ≠ 2 ∧ g ≠ 4)) :
    flushTarget? [g, a] = none := by
  rw [flushTarget?]
  obtain ⟨rfl, ha⟩ | ⟨rfl, ha⟩ | ⟨rfl, ha⟩ | ⟨h1, h2, h4⟩ := h
  · rw [if_pos rfl, index?_none ha, Option.map_none]
  · rw [if_neg (by decide), if_pos rfl, index?_none ha, Option.map_none]
  · rw [if_neg (by decide), if_neg (by decide), if_pos rfl, index?_none ha, Option.map_none]
  · rw [if_neg h1, if_neg h2, if_neg h4]

theorem flushTarget?_three_none {g a b : Word} (h : g ≠ 3 ∨ 8 ≤ a.toNat ∨ 16 ≤ b.toNat) :
    flushTarget? [g, a, b] = none := by
  rw [flushTarget?]
  split
  next hg =>
    obtain hg' | ha | hb := h
    · exact absurd hg hg'
    · rw [index?_none ha]
    · rw [index?_none hb]
      cases a.index? 8 <;> rfl
  next => rfl

theorem flushTarget?_count_none {args : List Word} (h : args.length = 0 ∨ 3 < args.length) :
    flushTarget? args = none := by
  match args with
  | [] => rfl
  | [_] | [_, _] | [_, _, _] => simp at h
  | _ :: _ :: _ :: _ :: _ => rfl

/-! ## The row -/

theorem exec_flush (tag : Byte) (args : List Word) (s : State) :
    exec (.flush tag args) s = .next (manageRow 8 tag args s) := rfl

theorem actFlush_of_target {args : List Word} {g : Nat} {rings : List RingNo}
    (ht : flushTarget? args = some (g, rings)) (s : State) : actFlush args s =
      .answered .done [numWord g, firstOr255 rings, numWord rings.length] (walk rings resetRing s) := by
  rw [actFlush, ht]

theorem actFlush_of_none {args : List Word} (ht : flushTarget? args = none) (s : State) :
    actFlush args s = refusedArgument s := by
  rw [actFlush, ht]

theorem besideMgmt_resetRing (r : RingNo) : BesideMgmt (resetRing r) := fun _ _ => rfl

/-- An accepted FLUSH resets the rings it names and reports the granularity, the lowest ring and their number (R71). -/
theorem exec_flush_of_target (tag : Byte) {args : List Word} {g : Nat} {rings : List RingNo}
    (ht : flushTarget? args = some (g, rings)) (hn : args.length ≤ 3) {s : State} (h : s.ready = true) :
    exec (.flush tag args) s = .next ((walk rings resetRing (restartTimer s)).answering tag 8 .done
      [numWord g, firstOr255 rings, numWord rings.length]) := by
  rw [exec_flush, manageRow_answers (r := .flush) _ (BesideMgmt.walk besideMgmt_resetRing rings) h
    (length_le_maxArgs_of_le_three hn) rfl]
  exact actFlush_of_target ht _

theorem exec_flush_refused (tag : Byte) {args : List Word} (ht : flushTarget? args = none)
    (hn : args.length ≤ Config.maxArgs) {s : State} (h : s.ready = true) :
    exec (.flush tag args) s = .next ((restartTimer s).answering tag 8 .refusedArgument []) := by
  rw [exec_flush, manageRow_refused (r := .flush) h hn rfl (actFlush_of_none ht)]

/-! ## The reset of one ring (R52, R139) -/

section

variable (r : RingNo) (s : State)

theorem resetRing_rings_same : (resetRing r s).rings.get r = Ring.empty := by
  simp [resetRing]

theorem resetRing_rings_other {r' : RingNo} (hr : r' ≠ r) : (resetRing r s).rings.get r' = s.rings.get r' := by
  simp [resetRing, Table.get_set_other _ _ _ _ hr.symm]

theorem resetRing_tpt (i : RecordNo) : (resetRing r s).tpt.get i = (s.tpt.get i).movedOn r .filling := by
  simp [resetRing]

theorem resetRing_tracks (w : TrackNo) : (resetRing r s).watch.tracks.get w =
    if trackRing w = r then WatchedTrack.start else s.watch.tracks.get w := by
  simp [resetRing, resetRingTracks]

/-- A reset changes the rings, the records and the watched tracks, and nothing else. -/
theorem resetRing_eq : resetRing r s = { s with
    rings := (resetRing r s).rings, tpt := (resetRing r s).tpt,
    watch := { s.watch with tracks := (resetRing r s).watch.tracks } } := rfl

end

/-! ## The statement -/

/-- Settles O25: each form of FLUSH either names its rings, which the row then resets in turn, or names none and is refused; and what one reset leaves is said field by field. -/
theorem flushResetsRings : Obligations.FlushResetsRings := by
  unfold Obligations.FlushResetsRings
  refine ⟨?forms, ?reset⟩
  case forms =>
    intro tag s h flushed refused
    have accepts {args g rings} (ht : flushTarget? args = some (g, rings)) (hn : args.length ≤ 3) :
        exec (.flush tag args) s = flushed rings [numWord g, firstOr255 rings, numWord rings.length] :=
      exec_flush_of_target tag ht hn h
    have refuses {args} (ht : flushTarget? args = none) (hn : args.length ≤ 29) :
        exec (.flush tag args) s = refused := exec_flush_refused tag ht hn h
    refine ⟨?_, ?_, ?_, ?_, ?_, ?_, ?_, ?_, ?_⟩
    · exact accepts flushTarget?_all (by simp)
    · exact fun f => accepts (flushTarget?_feed f) (by simp)
    · exact fun r => accepts (flushTarget?_ring r) (by simp)
    · exact fun f k => accepts (flushTarget?_track f k) (by simp)
    · exact fun n => accepts (flushTarget?_line n) (by simp)
    · exact fun g hg => refuses (flushTarget?_one_none hg) (by simp)
    · exact fun g a hga => refuses (flushTarget?_two_none hga) (by simp)
    · exact fun g a b hgab => refuses (flushTarget?_three_none hgab) (by simp)
    · exact fun args hn hc => refuses (flushTarget?_count_none hc) hn
  case reset =>
    intro r s t
    exact ⟨resetRing_eq r s, resetRing_rings_same r s, fun _ => resetRing_rings_other r s, resetRing_tpt r s,
      resetRing_tracks r s⟩

end Machine

end Sys2Proof
end

section
/-! PROOF. READ TAKE POINTS of a ready part (R72, R73): the words of each view, and the forms it refuses. -/

namespace Sys2Proof

namespace Machine

/-! ## The records as the command is judged -/

section

variable {s : State} (h : s.awake = true) (c : Command)
include h

theorem judging_tpt_of_awake : (s.judging c).tpt = s.tpt := by
  obtain ⟨m, hm⟩ := judging_of_awake h c
  simp [hm]

theorem judging_rings_of_awake : (s.judging c).rings = s.rings := by
  obtain ⟨m, hm⟩ := judging_of_awake h c
  simp [hm]

end

/-- The level of a record is read from the rings alone (R72). -/
theorem recordLevel_congr {s t : State} (h : t.rings = s.rings) (tp : TakePoint) :
    recordLevel t tp = recordLevel s tp := by
  cases hs : tp.state <;> simp [recordLevel, occupancy, hs, h]

theorem recordWords_congr {s t : State} (h : t.rings = s.rings) (view : Fin 3) :
    recordWords t view = recordWords s view := by
  funext tp
  simp only [recordWords, recordLevel_congr h]

/-! ## The act -/

theorem actReadTakePoints_of_view {a b c : Word} {view : Fin 3} (ha : a.toNat < 64) (hb1 : 1 ≤ b.toNat)
    (hb8 : b.toNat ≤ 8) (hab : a.toNat + b.toNat ≤ 64) (hc : c.index? 3 = some view) (s : State) :
    actReadTakePoints [a, b, c] s = .answered .done
      ([a, b, c] ++ ((s.tpt.cells.drop a.toNat).take b.toNat).flatMap (recordWords s view)) s := by
  simp only [actReadTakePoints, index?_of_lt ha, hc]
  rw [if_pos ⟨hb1, hb8, hab⟩]

/-- Words outside their ranges are refused (R73). -/
theorem actReadTakePoints_of_range {a b c : Word}
    (h : ¬(a.toNat < 64 ∧ 1 ≤ b.toNat ∧ b.toNat ≤ 8 ∧ a.toNat + b.toNat ≤ 64) ∨ 3 ≤ c.toNat) (s : State) :
    actReadTakePoints [a, b, c] s = refusedArgument s := by
  rw [actReadTakePoints]
  rcases Nat.lt_or_ge a.toNat 64 with ha | ha
  case inr => rw [index?_none ha]
  rcases Nat.lt_or_ge c.toNat 3 with hc | hc
  case inr => rw [index?_of_lt ha, index?_none hc]
  rw [index?_of_lt ha, index?_of_lt hc]
  have misfits := h.resolve_right (by omega)
  exact if_neg fun ⟨hb1, hb8, hab⟩ => misfits ⟨ha, hb1, hb8, hab⟩

theorem actReadTakePoints_of_count {args : List Word} (hc : args.length ≠ 3) (s : State) :
    actReadTakePoints args s = refusedArgument s := by
  match args with
  | [] | [_] | [_, _] => rfl
  | [_, _, _] => exact absurd rfl hc
  | _ :: _ :: _ :: _ :: _ => rfl

/-! ## The row -/

theorem exec_readTakePoints (tag : Byte) (args : List Word) (s : State) :
    exec (.readTakePoints tag args) s = .next (manageRow 9 tag args s) := rfl

/-- An accepted READ TAKE POINTS changes nothing but the timer and the answer (R72). -/
theorem exec_readTakePoints_of_view (tag : Byte) {a b c : Word} (view : Fin 3)
    (hfits : a.toNat < 64 ∧ 1 ≤ b.toNat ∧ b.toNat ≤ 8 ∧ a.toNat + b.toNat ≤ 64) (hc : c.index? 3 = some view)
    {s : State} (h : s.ready = true) :
    exec (.readTakePoints tag [a, b, c]) s = .next ((restartTimer s).answering tag 9 .done
      ([a, b, c] ++ ((s.tpt.cells.drop a.toNat).take b.toNat).flatMap (recordWords s view))) := by
  obtain ⟨ha, hb1, hb8, hab⟩ := hfits
  have hw := awake_of_ready h
  rw [exec_readTakePoints, manageRow_answers (r := .readTakePoints) _ BesideMgmt.id h
    (length_le_maxArgs_of_le_three (by simp)) rfl]
  rw [act, actReadTakePoints_of_view ha hb1 hb8 hab hc, judging_tpt_of_awake hw,
    recordWords_congr (judging_rings_of_awake hw _)]

theorem exec_readTakePoints_refused (tag : Byte) {args : List Word} (hn : args.length ≤ Config.maxArgs)
    (ha : ∀ x, actReadTakePoints args x = refusedArgument x) {s : State} (h : s.ready = true) :
    exec (.readTakePoints tag args) s = .next ((restartTimer s).answering tag 9 .refusedArgument []) := by
  rw [exec_readTakePoints, manageRow_refused (r := .readTakePoints) h hn rfl ha]

/-! ## The statement -/

/-- Settles O29: the third word picks the view, whose three words a record are read off `recordWords`; every other form is refused by the act. -/
theorem readTakePointsReportsRecords : Obligations.ReadTakePointsReportsRecords := by
  unfold Obligations.ReadTakePointsReportsRecords
  refine ⟨rfl, fun tag s h => ⟨?count, fun a b c => ⟨?places, ?levels, ?slips, ?range⟩⟩⟩
  case count => exact fun args hn hc => exec_readTakePoints_refused tag hn (actReadTakePoints_of_count hc) h
  case places =>
    rintro hfits rfl
    exact exec_readTakePoints_of_view tag 0 hfits rfl h
  case levels =>
    rintro hfits rfl
    exact exec_readTakePoints_of_view tag 1 hfits rfl h
  case slips =>
    rintro hfits rfl
    exact exec_readTakePoints_of_view tag 2 hfits rfl h
  case range =>
    exact fun hr => exec_readTakePoints_refused tag (length_le_maxArgs_of_le_three (by simp))
      (actReadTakePoints_of_range hr) h

end Machine

end Sys2Proof
end

section
/-! PROOF. WRITE ENTRY and READ ENTRY of a ready part (R84, R85, R89): the banks as a command is judged, which words describe an entry, what is read back of it, and the forms both commands refuse. -/

namespace Sys2Proof

namespace Machine

/-! ## A row that its act refuses -/

theorem codeRow?_rowCode (r : CommandRow) : codeRow? (rowCode r) = some r := by cases r <;> rfl

/-- A row that its act refuses changes nothing but the timer and the answer, whichever row of the table it is (R165). -/
theorem row_refused (r : CommandRow) (tag : Byte) {args : List Word} (hn : args.length ≤ Config.maxArgs)
    (ha : ∀ x, act r args x = refusedArgument x) {s : State} (h : s.ready = true) :
    (.next (manageRow (rowCode r) tag args s) : Host.Outcome State Fault Refusal) =
      .next ((restartTimer s).answering tag (rowCode r) .refusedArgument []) := by
  rw [manageRow_refused h hn (codeRow?_rowCode r) ha]

/-! ## The banks beside Management -/

@[simp] theorem bankOf_setMgmt (s : State) (m : Management) (b : BankCode) : bankOf (s.setMgmt m) b = bankOf s b := by
  cases b <;> rfl

@[simp] theorem stagingOf_setMgmt (s : State) (m : Management) (b : Staging) :
    stagingOf (s.setMgmt m) b = stagingOf s b := by
  cases b <;> rfl

@[simp] theorem bankOf_setStaging (b : Staging) (k : Bank) (s : State) :
    bankOf (setStaging b k s) (stagingBank b) = k := by
  cases b <;> rfl

theorem besideMgmt_setStaging (b : Staging) (k : Bank) : BesideMgmt (setStaging b k) := fun _ _ => by
  cases b <;> rfl

section

variable {s : State} (h : s.awake = true) (c : Command)
include h

theorem bankOf_judging_of_awake (b : BankCode) : bankOf (s.judging c) b = bankOf s b := by
  obtain ⟨m, hm⟩ := judging_of_awake h c
  rw [hm, bankOf_setMgmt]

theorem stagingOf_judging_of_awake (b : Staging) : stagingOf (s.judging c) b = stagingOf s b := by
  obtain ⟨m, hm⟩ := judging_of_awake h c
  rw [hm, stagingOf_setMgmt]

end

/-! ## The words that describe an entry (R84) -/

/-- Only 255 is read as no source. -/
theorem sourceArg?_absent_iff (w : Word) : sourceArg? w = some none ↔ w = 255 := by
  by_cases hw : w = 255 <;> simp [sourceArg?, hw]

/-- The words of an entry are read back as that entry, with the delay held at 6000 (R84, R85). -/
theorem entryArgs?_of_codes {source partner : Option Source} (hsp : partner = none ∨ source ≠ none)
    (gain pgain delay : Word) (invert pinvert mute : Bool) (ramp : RampCode) :
    entryArgs? (sourceWord source) gain (flagWord invert) (sourceWord partner) pgain (flagWord pinvert) delay
        (rampWord ramp) (flagWord mute) =
      some ⟨source, gain, invert, partner.map fun p => ⟨p, pgain, pinvert⟩, min 6000 delay.toNat, ramp, mute⟩ := by
  have paired : ¬(source = none ∧ partner ≠ none) := fun ⟨hs, hp⟩ => hsp.elim hp (· hs)
  simp only [entryArgs?, sourceArg?_sourceWord, flag?_flagWord, rampArg?_rampWord, if_neg paired, Config.maxDelay]

/-- A word out of range, or a partner without a source, describes no entry (R84). -/
theorem entryArgs?_of_range {src gain inv psrc pgain pinv delay ramp mute : Word}
    (h : (144 ≤ src.toNat ∧ src ≠ 255) ∨ 2 ≤ inv.toNat ∨ (144 ≤ psrc.toNat ∧ psrc ≠ 255) ∨ 2 ≤ pinv.toNat ∨
      4 ≤ ramp.toNat ∨ 2 ≤ mute.toNat ∨ (src = 255 ∧ psrc ≠ 255)) :
    entryArgs? src gain inv psrc pgain pinv delay ramp mute = none := by
  rw [entryArgs?]
  split
  next hsrc hinv hpsrc hpinv hramp hmute =>
    obtain ⟨hs, hne⟩ | hi | ⟨hp, hne⟩ | hpi | hr | hm | ⟨hs, hne⟩ := h
    · simp [sourceArg?_none hs hne] at hsrc
    · simp [flag?_none hi] at hinv
    · simp [sourceArg?_none hp hne] at hpsrc
    · simp [flag?_none hpi] at hpinv
    · simp [rampArg?_none hr] at hramp
    · simp [flag?_none hm] at hmute
    · rw [(sourceArg?_absent_iff src).mpr hs, Option.some.injEq] at hsrc
      refine if_pos ⟨hsrc.symm, ?_⟩
      rintro rfl
      exact hne ((sourceArg?_absent_iff psrc).mp hpsrc)
  next => rfl

/-! ## The words read of an entry (R89) -/

/-- The words of READ ENTRY are read from the named bank alone. -/
theorem entryWords_congr {s t : State} {b : BankCode} (h : bankOf t b = bankOf s b) (x : Dest) :
    entryWords t b x = entryWords s b x := by
  rw [entryWords, h, entryWords]

/-- The words of READ ENTRY, an absent partner's gain and invert being 0. -/
theorem entryWords_eq (s : State) (b : BankCode) (x : Dest) :
    let e := (bankOf s b).entries.get x
    entryWords s b x = [bankCode b, numWord x.val, sourceWord e.source, e.gain, flagWord e.invert,
      sourceWord (e.partner.map fun p => p.source), e.partner.elim 0 (fun p => p.gain),
      e.partner.elim 0 (fun p => flagWord p.invert), numWord e.delay, rampWord e.ramp, flagWord e.mute,
      flagWord (inUseIn (bankOf s b) x), numWord (pairNeed (bankOf s b))] := by
  simp only [entryWords]
  cases ((bankOf s b).entries.get x).partner <;> rfl

/-! ## WRITE ENTRY (R84, R85) -/

theorem actWriteEntry_of_entry {a b src gain inv psrc pgain pinv delay ramp mute : Word} {bank : Staging} {x : Dest}
    {e : Entry} (ha : stagingArg? a = some bank) (hb : b.index? 144 = some x)
    (he : entryArgs? src gain inv psrc pgain pinv delay ramp mute = some e) (s : State) :
    let k := stagingOf s bank
    let t := setStaging bank { k with entries := k.entries.set x e } s
    actWriteEntry [a, b, src, gain, inv, psrc, pgain, pinv, delay, ramp, mute] s =
      .answered (if 6000 < delay.toNat then .clamped else .done) (entryWords t (stagingBank bank) x) t := by
  simp only [actWriteEntry, ha, hb, he]
  rfl

theorem actWriteEntry_of_range {a b src gain inv psrc pgain pinv delay ramp mute : Word}
    (h : (a ≠ 1 ∧ a ≠ 2) ∨ 144 ≤ b.toNat ∨ (144 ≤ src.toNat ∧ src ≠ 255) ∨ 2 ≤ inv.toNat ∨
      (144 ≤ psrc.toNat ∧ psrc ≠ 255) ∨ 2 ≤ pinv.toNat ∨ 4 ≤ ramp.toNat ∨ 2 ≤ mute.toNat ∨ (src = 255 ∧ psrc ≠ 255))
    (s : State) :
    actWriteEntry [a, b, src, gain, inv, psrc, pgain, pinv, delay, ramp, mute] s = refusedArgument s := by
  rw [actWriteEntry]
  split
  next ha hb he =>
    obtain ⟨h1, h2⟩ | hx | hr := h
    · simp [stagingArg?_none h1 h2] at ha
    · simp [index?_none hx] at hb
    · simp [entryArgs?_of_range hr] at he
  next => rfl

theorem actWriteEntry_of_count {args : List Word} (hc : args.length ≠ 11) (s : State) :
    actWriteEntry args s = refusedArgument s := by
  rw [actWriteEntry]
  rintro _ _ _ _ _ _ _ _ _ _ _ rfl
  exact hc rfl

theorem exec_writeEntry (tag : Byte) (args : List Word) (s : State) :
    exec (.writeEntry tag args) s = .next (manageRow 16 tag args s) := rfl

/-- An accepted WRITE ENTRY replaces one entry of a staging bank and answers with the words then read of it (R84, R85). -/
theorem exec_writeEntry_of_entry (tag : Byte) {a b src gain inv psrc pgain pinv delay ramp mute : Word} {bank : Staging}
    {x : Dest} {e : Entry} (ha : stagingArg? a = some bank) (hb : b.index? 144 = some x)
    (he : entryArgs? src gain inv psrc pgain pinv delay ramp mute = some e) {s : State} (h : s.ready = true) :
    let k := stagingOf s bank
    let t := setStaging bank { k with entries := k.entries.set x e } (restartTimer s)
    exec (.writeEntry tag [a, b, src, gain, inv, psrc, pgain, pinv, delay, ramp, mute]) s =
      .next (t.answering tag 16 (if 6000 < delay.toNat then .clamped else .done)
        (entryWords t (stagingBank bank) x)) := by
  intro k t
  rw [exec_writeEntry, manageRow_answers (r := .writeEntry) _ (besideMgmt_setStaging bank _) h
    (by simp [Config.maxArgs]) rfl]
  rw [act, actWriteEntry_of_entry ha hb he, stagingOf_judging_of_awake (awake_of_ready h)]
  rw [entryWords_congr ((bankOf_setStaging _ _ _).trans (bankOf_setStaging _ _ _).symm)]

/-! ## READ ENTRY (R89) -/

theorem actReadEntry_of_codes (b : BankCode) (x : Dest) (s : State) :
    actReadEntry [bankCode b, numWord x.val] s = .answered .done (entryWords s b x) s := by
  simp only [actReadEntry, bankArg?_bankCode, index?_numWord 144 (by norm_num) x]

theorem actReadEntry_of_range {a b : Word} (h : 4 ≤ a.toNat ∨ 144 ≤ b.toNat) (s : State) :
    actReadEntry [a, b] s = refusedArgument s := by
  rw [actReadEntry]
  split
  next ha hb =>
    obtain hbank | hx := h
    · simp [bankArg?_none hbank] at ha
    · simp [index?_none hx] at hb
  next => rfl

theorem actReadEntry_of_count {args : List Word} (hc : args.length ≠ 2) (s : State) :
    actReadEntry args s = refusedArgument s := by
  rw [actReadEntry]
  rintro _ _ rfl
  exact hc rfl

theorem exec_readEntry (tag : Byte) (args : List Word) (s : State) :
    exec (.readEntry tag args) s = .next (manageRow 19 tag args s) := rfl

/-- An accepted READ ENTRY changes nothing but the timer and the answer (R89). -/
theorem exec_readEntry_of_codes (tag : Byte) (b : BankCode) (x : Dest) {s : State} (h : s.ready = true) :
    exec (.readEntry tag [bankCode b, numWord x.val]) s =
      .next ((restartTimer s).answering tag 19 .done (entryWords s b x)) := by
  rw [exec_readEntry, manageRow_answers (r := .readEntry) _ BesideMgmt.id h (length_le_maxArgs_of_le_three (by simp)) rfl]
  rw [act, actReadEntry_of_codes, entryWords_congr (bankOf_judging_of_awake (awake_of_ready h) _ b)]

/-! ## The statement -/

/-- Settles O36: the codes are read off their definitions; the words of an entry are read back as the entry, which the row puts in the staging bank and reads; every other form is refused by the act. -/
theorem writeAndReadEntry : Obligations.WriteAndReadEntry := by
  unfold Obligations.WriteAndReadEntry
  refine ⟨⟨fun _ _ => ⟨rfl, rfl, rfl⟩, fun _ => ⟨rfl, rfl, rfl⟩, rfl, fun _ => rfl, rfl, rfl, rfl, rfl⟩, ?_⟩
  intro tag s h words
  have words_eq (t : State) (b : BankCode) (x : Dest) : words t b x = entryWords t b x := (entryWords_eq t b x).symm
  refine ⟨?write, ?writeCount, ?readCount, ?writeRange, ?read, ?readRange⟩
  case write =>
    intro b x source partner gain pgain delay invert pinvert mute ramp hsp e t
    rw [words_eq]
    exact exec_writeEntry_of_entry tag (stagingArg?_stagingCode b) (index?_numWord 144 (by norm_num) x)
      (entryArgs?_of_codes hsp gain pgain delay invert pinvert mute ramp) h
  case writeCount => exact fun args hn hc => row_refused .writeEntry tag hn (actWriteEntry_of_count hc) h
  case readCount => exact fun args hn hc => row_refused .readEntry tag hn (actReadEntry_of_count hc) h
  case writeRange =>
    intro a b src gain inv psrc pgain pinv delay ramp mute hr
    have hn : [a, b, src, gain, inv, psrc, pgain, pinv, delay, ramp, mute].length ≤ Config.maxArgs := by
      simp [Config.maxArgs]
    exact row_refused .writeEntry tag hn (actWriteEntry_of_range hr) h
  case read =>
    intro b x
    rw [words_eq]
    exact exec_readEntry_of_codes tag b x h
  case readRange =>
    intro a b hr
    have hn : [a, b].length ≤ Config.maxArgs := length_le_maxArgs_of_le_three (by simp)
    exact row_refused .readEntry tag hn (actReadEntry_of_range hr) h

end Machine

end Sys2Proof
end

section
/-! PROOF. WRITE QUAD MODE, COPY BANK and READ QUAD MODES of a ready part (R86, R87, R90), with a bank's destinations in use, its references and its pair need (R81, R82). -/

namespace Sys2Proof

namespace Machine

/-! ## In use (R81) -/

theorem embeds_iff (m : QuadMode) : embeds m = true ↔ m = .embed24 ∨ m = .embed20 := by
  cases m <;> simp [embeds]

theorem carriedIn_iff (b : Bank) (x : Dest) : carriedIn b x = true ↔
    128 ≤ x.val ∨ ∃ q : OutQuad, q.val = x.val / 4 ∧ (b.modes.get q = .embed24 ∨ b.modes.get q = .embed20) := by
  rw [carriedIn, destQuad?]
  by_cases hx : x.val / 4 < 32
  case pos =>
    simp only [dif_pos hx, embeds_iff]
    constructor
    · exact fun hm => .inr ⟨_, rfl, hm⟩
    · rintro (hx' | ⟨q, hq, hm⟩)
      · omega
      · obtain rfl : q = ⟨x.val / 4, hx⟩ := Fin.ext hq
        exact hm
  case neg =>
    simp only [dif_neg hx, true_iff]
    exact .inl (by omega)

theorem inUseIn_iff (b : Bank) (x : Dest) :
    inUseIn b x = true ↔ (b.entries.get x).source ≠ none ∧ carriedIn b x = true := by
  rw [inUseIn, Bool.and_eq_true, Option.isSome_iff_ne_none]

/-! ## References and pair need (R82) -/

/-- An entry with a source refers to a pair of its destination's domain once for each of its sources in the pair's ring. -/
theorem count_entryPairs {e : Entry} (hs : e.source ≠ none) (d : Domain) (p : RingNo × Domain) :
    (entryPairs e d).count p = if d = p.2 then
      (e.source.elim 0 fun src => if sourceRing src = p.1 then 1 else 0) +
        (e.partner.elim 0 fun k => if sourceRing k.source = p.1 then 1 else 0)
    else 0 := by
  obtain ⟨r, c⟩ := p
  obtain ⟨src, hsrc⟩ := Option.ne_none_iff_exists'.mp hs
  by_cases hd : d = c <;> cases hp : e.partner <;> simp [entryPairs, hsrc, hp, hd, List.count_cons, Nat.add_comm]

theorem count_destPairs (b : Bank) (x : Dest) (p : RingNo × Domain) :
    let e := b.entries.get x
    (destPairs b x).count p = if destDomain x = p.2 ∧ inUseIn b x = true then
      (e.source.elim 0 fun src => if sourceRing src = p.1 then 1 else 0) +
        (e.partner.elim 0 fun k => if sourceRing k.source = p.1 then 1 else 0)
    else 0 := by
  intro e
  rw [destPairs]
  by_cases hu : inUseIn b x = true
  case pos => simp only [hu, if_true, and_true, count_entryPairs ((inUseIn_iff b x).mp hu).1, e]
  case neg => simp [hu]

/-- The needs of a bank hold a pair once for each reference to it. -/
theorem count_bankPairs (b : Bank) (p : RingNo × Domain) :
    (bankPairs b).count p = ((List.finRange 144).map fun x => (destPairs b x).count p).sum := by
  rw [bankPairs, List.count_flatMap]
  rfl

theorem pairNeed_eq_card (b : Bank) :
    pairNeed b = (Finset.univ.filter fun p : RingNo × Domain => 1 ≤ (bankPairs b).count p).card := by
  rw [pairNeed, ← List.card_toFinset]
  congr 1
  ext p
  simp [List.one_le_count_iff]

/-! ## WRITE QUAD MODE (R86) -/

theorem actWriteQuadMode_of_codes (b : Staging) (q : OutQuad) (m : QuadMode) (s : State) :
    let k := { stagingOf s b with modes := (stagingOf s b).modes.set q m }
    actWriteQuadMode [numWord (stagingCode b), numWord q.val, modeCode m] s = .answered .done
      [numWord (stagingCode b), numWord q.val, modeCode m, numWord (pairNeed k)] (setStaging b k s) := by
  simp only [actWriteQuadMode, stagingArg?_stagingCode, index?_numWord 32 (by norm_num) q, modeArg?_modeCode]

theorem actWriteQuadMode_of_range {a b c : Word} (h : (a ≠ 1 ∧ a ≠ 2) ∨ 32 ≤ b.toNat ∨ 4 ≤ c.toNat) (s : State) :
    actWriteQuadMode [a, b, c] s = refusedArgument s := by
  rw [actWriteQuadMode]
  split
  next ha hb hc =>
    obtain ⟨h1, h2⟩ | hq | hm := h
    · simp [stagingArg?_none h1 h2] at ha
    · simp [index?_none hq] at hb
    · simp [modeArg?_none hm] at hc
  next => rfl

theorem actWriteQuadMode_of_count {args : List Word} (hc : args.length ≠ 3) (s : State) :
    actWriteQuadMode args s = refusedArgument s := by
  rw [actWriteQuadMode]
  rintro _ _ _ rfl
  exact hc rfl

theorem exec_writeQuadMode (tag : Byte) (args : List Word) (s : State) :
    exec (.writeQuadMode tag args) s = .next (manageRow 17 tag args s) := rfl

/-- An accepted WRITE QUAD MODE sets one mode of a staging bank and answers with the pair need it then has (R86). -/
theorem exec_writeQuadMode_of_codes (tag : Byte) (b : Staging) (q : OutQuad) (m : QuadMode) {s : State}
    (h : s.ready = true) :
    let k := { stagingOf s b with modes := (stagingOf s b).modes.set q m }
    exec (.writeQuadMode tag [numWord (stagingCode b), numWord q.val, modeCode m]) s =
      .next ((setStaging b k (restartTimer s)).answering tag 17 .done
        [numWord (stagingCode b), numWord q.val, modeCode m, numWord (pairNeed k)]) := by
  intro k
  rw [exec_writeQuadMode, manageRow_answers (r := .writeQuadMode) _ (besideMgmt_setStaging b k) h
    (length_le_maxArgs_of_le_three (by simp)) rfl]
  rw [act, actWriteQuadMode_of_codes, stagingOf_judging_of_awake (awake_of_ready h)]

/-! ## COPY BANK (R87) -/

theorem actCopyBank_of_codes (b : BankCode) (d : Staging) (s : State) :
    actCopyBank [bankCode b, numWord (stagingCode d)] s = .answered .done
      [bankCode b, numWord (stagingCode d), numWord (pairNeed (bankOf s b))] (setStaging d (bankOf s b) s) := by
  simp only [actCopyBank, bankArg?_bankCode, stagingArg?_stagingCode]

theorem actCopyBank_of_range {a b : Word} (h : 4 ≤ a.toNat ∨ (b ≠ 1 ∧ b ≠ 2)) (s : State) :
    actCopyBank [a, b] s = refusedArgument s := by
  rw [actCopyBank]
  split
  next ha hb =>
    obtain hbank | ⟨h1, h2⟩ := h
    · simp [bankArg?_none hbank] at ha
    · simp [stagingArg?_none h1 h2] at hb
  next => rfl

theorem actCopyBank_of_count {args : List Word} (hc : args.length ≠ 2) (s : State) :
    actCopyBank args s = refusedArgument s := by
  rw [actCopyBank]
  rintro _ _ rfl
  exact hc rfl

theorem exec_copyBank (tag : Byte) (args : List Word) (s : State) :
    exec (.copyBank tag args) s = .next (manageRow 18 tag args s) := rfl

/-- An accepted COPY BANK makes a staging bank the source bank and answers with its pair need (R87). -/
theorem exec_copyBank_of_codes (tag : Byte) (b : BankCode) (d : Staging) {s : State} (h : s.ready = true) :
    exec (.copyBank tag [bankCode b, numWord (stagingCode d)]) s =
      .next ((setStaging d (bankOf s b) (restartTimer s)).answering tag 18 .done
        [bankCode b, numWord (stagingCode d), numWord (pairNeed (bankOf s b))]) := by
  rw [exec_copyBank, manageRow_answers (r := .copyBank) _ (besideMgmt_setStaging d (bankOf s b)) h
    (length_le_maxArgs_of_le_three (by simp)) rfl]
  rw [act, actCopyBank_of_codes, bankOf_judging_of_awake (awake_of_ready h)]

/-! ## READ QUAD MODES (R90) -/

theorem index?_val {n : Nat} {w : Word} {i : Fin n} (hi : w.index? n = some i) : i.val = w.toNat := by
  rcases Nat.lt_or_ge w.toNat n with hw | hw
  · rw [index?_of_lt hw, Option.some.injEq] at hi
    rw [← hi]
  · simp [index?_none hw] at hi

theorem actReadQuadModes_of_fits (b : BankCode) {first n : Nat} (hf : first < 32) (hn1 : 1 ≤ n) (hn24 : n ≤ 24)
    (hfn : first + n ≤ 32) (s : State) :
    actReadQuadModes [bankCode b, numWord first, numWord n] s = .answered .done
      ([bankCode b, numWord first, numWord n, numWord (pairNeed (bankOf s b))] ++
        (((bankOf s b).modes.cells.drop first).take n).map modeCode) s := by
  have hn : (numWord n).toNat = n := numWord_toNat (by omega)
  simp only [actReadQuadModes, bankArg?_bankCode, index?_numWord 32 (by norm_num) ⟨first, hf⟩, hn]
  rw [if_pos ⟨hn1, hn24, hfn⟩]

theorem actReadQuadModes_of_range {a b c : Word}
    (h : 4 ≤ a.toNat ∨ 32 ≤ b.toNat ∨ c = 0 ∨ 24 < c.toNat ∨ 32 < b.toNat + c.toNat) (s : State) :
    actReadQuadModes [a, b, c] s = refusedArgument s := by
  rw [actReadQuadModes]
  split
  next bank first ha hb =>
    have hfirst : first.val = b.toNat := index?_val hb
    refine if_neg fun ⟨hc1, hc24, hbc⟩ => ?_
    obtain hbank | hq | rfl | hcount := h
    · simp [bankArg?_none hbank] at ha
    · omega
    · simp at hc1
    · omega
  next => rfl

theorem actReadQuadModes_of_count {args : List Word} (hc : args.length ≠ 3) (s : State) :
    actReadQuadModes args s = refusedArgument s := by
  rw [actReadQuadModes]
  rintro _ _ _ rfl
  exact hc rfl

theorem exec_readQuadModes (tag : Byte) (args : List Word) (s : State) :
    exec (.readQuadModes tag args) s = .next (manageRow 20 tag args s) := rfl

/-- An accepted READ QUAD MODES changes nothing but the timer and the answer (R90). -/
theorem exec_readQuadModes_of_fits (tag : Byte) (b : BankCode) {first n : Nat} (hf : first < 32) (hn1 : 1 ≤ n)
    (hn24 : n ≤ 24) (hfn : first + n ≤ 32) {s : State} (h : s.ready = true) :
    exec (.readQuadModes tag [bankCode b, numWord first, numWord n]) s =
      .next ((restartTimer s).answering tag 20 .done
        ([bankCode b, numWord first, numWord n, numWord (pairNeed (bankOf s b))] ++
          (((bankOf s b).modes.cells.drop first).take n).map modeCode)) := by
  rw [exec_readQuadModes, manageRow_answers (r := .readQuadModes) _ BesideMgmt.id h
    (length_le_maxArgs_of_le_three (by simp)) rfl]
  rw [act, actReadQuadModes_of_fits b hf hn1 hn24 hfn, bankOf_judging_of_awake (awake_of_ready h)]

/-! ## The statement -/

/-- Settles O37: the numbering and the codes are read off their definitions, references and pair need are counts over the needs of the destinations, and each form of the three commands is answered by its act. -/
theorem quadModesAndCopyBank : Obligations.QuadModesAndCopyBank := by
  unfold Obligations.QuadModesAndCopyBank
  refine ⟨?numbering, ⟨rfl, fun b x => ⟨carriedIn_iff b x, inUseIn_iff b x⟩, ?needs⟩, ?commands⟩
  case numbering =>
    exact ⟨fun _ => rfl, rfl, fun _ _ => rfl, fun _ => rfl, fun _ _ => rfl, fun _ => rfl, fun _ _ => rfl,
      fun _ => ⟨rfl, rfl, fun _ => ⟨rfl, rfl⟩⟩⟩
  case needs =>
    intro b references
    have counted (p : RingNo × Domain) : (bankPairs b).count p = references p := by
      simp only [count_bankPairs, count_destPairs, references]
    refine ⟨counted, ?_⟩
    simp only [pairNeed_eq_card, counted]
  case commands =>
    intro tag s h t
    have two (a b : Word) : [a, b].length ≤ Config.maxArgs := length_le_maxArgs_of_le_three (by simp)
    have three (a b c : Word) : [a, b, c].length ≤ Config.maxArgs := length_le_maxArgs_of_le_three (by simp)
    refine ⟨?_, ?_, ?_, ?_, ?_, ?_, ?_, ?_, ?_⟩
    · exact fun b q m => exec_writeQuadMode_of_codes tag b q m h
    · exact fun args hn hc => row_refused .writeQuadMode tag hn (actWriteQuadMode_of_count hc) h
    · exact fun args hn hc => row_refused .copyBank tag hn (actCopyBank_of_count hc) h
    · exact fun args hn hc => row_refused .readQuadModes tag hn (actReadQuadModes_of_count hc) h
    · exact fun a b c hr => row_refused .writeQuadMode tag (three a b c) (actWriteQuadMode_of_range hr) h
    · exact fun b d => exec_copyBank_of_codes tag b d h
    · exact fun a b hr => row_refused .copyBank tag (two a b) (actCopyBank_of_range hr) h
    · exact fun b first n hf hn1 hn24 hfn => exec_readQuadModes_of_fits tag b hf hn1 hn24 hfn h
    · exact fun a b c hr => row_refused .readQuadModes tag (three a b c) (actReadQuadModes_of_range hr) h

end Machine

end Sys2Proof
end

section
/-! PROOF. SET GUARD and READ GUARDS of a ready part (R92, R94): what is guarded (R91), the range that the words describe, and the three steps in which SET GUARD is judged. -/

namespace Sys2Proof

namespace Machine

/-! ## Guarded destinations and output quads (R79, R91) -/

theorem covers_iff (g : Guard) (x : Dest) :
    g.covers x = true ↔ g.enabled = true ∧ g.low ≤ x ∧ x ≤ g.high := by
  simp [Guard.covers, and_assoc]

theorem destGuarded_iff (g : Table 4 Guard) (x : Dest) : destGuarded g x = true ↔
    ∃ i, (g.get i).enabled = true ∧ (g.get i).low ≤ x ∧ x ≤ (g.get i).high := by
  simp only [destGuarded, List.any_eq_true, Table.mem_cells_iff, covers_iff]
  constructor
  · rintro ⟨_, ⟨i, rfl⟩, hx⟩
    exact ⟨i, hx⟩
  · rintro ⟨i, hx⟩
    exact ⟨_, ⟨i, rfl⟩, hx⟩

/-- The four destinations of an output quad are those with its number as their quotient by 4 (R79). -/
theorem exists_quadDest_iff (q : OutQuad) (x : Dest) : (∃ p, quadDest q p = x) ↔ x.val / 4 = q.val := by
  simp only [quadDest, Fin.ext_iff]
  constructor
  · rintro ⟨p, hp⟩
    omega
  · intro hx
    exact ⟨⟨x.val % 4, by omega⟩, by simp only; omega⟩

theorem quadGuarded_iff (g : Table 4 Guard) (q : OutQuad) :
    quadGuarded g q = true ↔ ∃ x : Dest, x.val / 4 = q.val ∧ destGuarded g x = true := by
  simp only [quadGuarded, List.any_eq_true, List.mem_finRange, true_and, ← exists_quadDest_iff]
  constructor
  · rintro ⟨p, hp⟩
    exact ⟨_, ⟨p, rfl⟩, hp⟩
  · rintro ⟨_, ⟨p, rfl⟩, hp⟩
    exact ⟨p, hp⟩

theorem guardsNew_iff (old new : Table 4 Guard) :
    guardsNew old new = true ↔ ∃ x, destGuarded new x = true ∧ destGuarded old x = false := by
  simp [guardsNew]

/-! ## The range that the words of SET GUARD describe (R92) -/

/-- The words of a range are read back as that range, when its bounds stand in order. -/
theorem guardArgs?_of_le (enabled : Bool) {low high : Dest} (hle : low ≤ high) (fixed : Bool) :
    guardArgs? (flagWord enabled) (numWord low.val) (numWord high.val) (flagWord fixed) =
      some ⟨enabled, low, high, fixed⟩ := by
  simp only [guardArgs?, flag?_flagWord, index?_numWord 144 (by norm_num), if_pos hle]

theorem guardArgs?_of_lt (enabled : Bool) {low high : Dest} (hlt : high < low) (fixed : Bool) :
    guardArgs? (flagWord enabled) (numWord low.val) (numWord high.val) (flagWord fixed) = none := by
  simp only [guardArgs?, flag?_flagWord, index?_numWord 144 (by norm_num), if_neg (not_le.mpr hlt)]

theorem guardArgs?_of_range {b c d e : Word}
    (h : 2 ≤ b.toNat ∨ 144 ≤ c.toNat ∨ 144 ≤ d.toNat ∨ 2 ≤ e.toNat) : guardArgs? b c d e = none := by
  rw [guardArgs?]
  split
  next hb hc hd he =>
    obtain hr | hr | hr | hr := h
    · simp [flag?_none hr] at hb
    · simp [index?_none hr] at hc
    · simp [index?_none hr] at hd
    · simp [flag?_none hr] at he
  next => rfl

/-! ## SET GUARD (R92) -/

/-- The guard ranges and the commit in flight as the command is judged are those of the part. -/
theorem judging_guards_ce_of_awake {s : State} (h : s.awake = true) (c : Command) :
    (s.judging c).guards = s.guards ∧ (s.judging c).ce = s.ce := by
  obtain ⟨m, hm⟩ := judging_of_awake h c
  simp [hm]

/-- The guard ranges become `g`. -/
def setGuards (g : Table 4 Guard) (s : State) : State := { s with guards := g }

theorem besideMgmt_setGuards (g : Table 4 Guard) : BesideMgmt (setGuards g) := fun _ _ => rfl

/-- A commit is in flight and the ranges `g` would guard a destination that the ranges in force do not: what the third step of R92 refuses. -/
def GuardsBusy (s : State) (g : Table 4 Guard) : Prop :=
  s.ce.inFlight.isSome = true ∧ ∃ x, destGuarded g x = true ∧ destGuarded s.guards x = false

section

variable {a b c d e : Word} {i : Fin 4} {r : Guard} (ha : a.index? 4 = some i) (hr : guardArgs? b c d e = some r)
  {s : State}
include ha hr

theorem actSetGuard_of_fixed (hf : (s.guards.get i).fixed = true) :
    actSetGuard [a, b, c, d, e] s = .answered .refusedFixed [] s := by
  simp only [actSetGuard, ha, hr, hf, if_true]

theorem actSetGuard_of_busy (hf : (s.guards.get i).fixed = false) (hb : GuardsBusy s (s.guards.set i r)) :
    actSetGuard [a, b, c, d, e] s = .answered .refusedBusy [] s := by
  obtain ⟨hflight, hnew⟩ := hb
  simp [actSetGuard, ha, hr, hf, hflight, (guardsNew_iff _ _).mpr hnew]

theorem actSetGuard_of_free (hf : (s.guards.get i).fixed = false) (hb : ¬GuardsBusy s (s.guards.set i r)) :
    actSetGuard [a, b, c, d, e] s =
      .answered .done (a :: guardWords r) (setGuards (s.guards.set i r) s) := by
  have free : ¬(s.ce.inFlight.isSome && guardsNew s.guards (s.guards.set i r)) = true := by
    rwa [Bool.and_eq_true, guardsNew_iff]
  simp only [actSetGuard, ha, hr, hf, Bool.false_eq_true, if_false, if_neg free, setGuards]

end

theorem actSetGuard_of_none {a b c d e : Word} (h : a.index? 4 = none ∨ guardArgs? b c d e = none) (s : State) :
    actSetGuard [a, b, c, d, e] s = refusedArgument s := by
  rw [actSetGuard]
  split
  next ha hr => simp [ha, hr] at h
  next => rfl

theorem actSetGuard_of_count {args : List Word} (hc : args.length ≠ 5) (s : State) :
    actSetGuard args s = refusedArgument s := by
  rw [actSetGuard]
  rintro _ _ _ _ _ rfl
  exact hc rfl

theorem exec_setGuard (tag : Byte) (args : List Word) (s : State) :
    exec (.setGuard tag args) s = .next (manageRow 21 tag args s) := rfl

section

variable (tag : Byte) {a b c d e : Word} {i : Fin 4} {r : Guard} (ha : a.index? 4 = some i)
  (hr : guardArgs? b c d e = some r) {s : State} (h : s.ready = true)
include ha hr h

/-- The second step of R92: a range whose fixed flag is on stays as it is, whatever the other words. -/
theorem exec_setGuard_of_fixed (hf : (s.guards.get i).fixed = true) :
    exec (.setGuard tag [a, b, c, d, e]) s = .next ((restartTimer s).answering tag 21 .refusedFixed []) := by
  have hj := judging_guards_ce_of_awake (awake_of_ready h)
  rw [exec_setGuard, manageRow_answers (r := .setGuard) _ BesideMgmt.id h (by simp [Config.maxArgs]) rfl]
  exact actSetGuard_of_fixed ha hr (by rwa [(hj _).1])

/-- The third step of R92: while a commit is in flight, no destination becomes guarded. -/
theorem exec_setGuard_of_busy (hf : (s.guards.get i).fixed = false) (hb : GuardsBusy s (s.guards.set i r)) :
    exec (.setGuard tag [a, b, c, d, e]) s = .next ((restartTimer s).answering tag 21 .refusedBusy []) := by
  have hj := judging_guards_ce_of_awake (awake_of_ready h)
  rw [exec_setGuard, manageRow_answers (r := .setGuard) _ BesideMgmt.id h (by simp [Config.maxArgs]) rfl]
  exact actSetGuard_of_busy ha hr (by rwa [(hj _).1]) (by rwa [GuardsBusy, (hj _).1, (hj _).2])

/-- What no step of R92 refuses: the range is replaced and the words are answered as they came. -/
theorem exec_setGuard_of_free (hf : (s.guards.get i).fixed = false) (hb : ¬GuardsBusy s (s.guards.set i r)) :
    exec (.setGuard tag [a, b, c, d, e]) s =
      .next ((setGuards (s.guards.set i r) (restartTimer s)).answering tag 21 .done (a :: guardWords r)) := by
  have hj := judging_guards_ce_of_awake (awake_of_ready h)
  rw [exec_setGuard, manageRow_answers (r := .setGuard) _ (besideMgmt_setGuards (s.guards.set i r)) h
    (by simp [Config.maxArgs]) rfl]
  rw [act, actSetGuard_of_free ha hr (by rwa [(hj _).1]) (by rwa [GuardsBusy, (hj _).1, (hj _).2]), (hj _).1]

end

/-! ## READ GUARDS (R94) -/

theorem actReadGuards_of_nonempty {args : List Word} (hne : args ≠ []) (s : State) :
    actReadGuards args s = refusedArgument s := by
  rw [actReadGuards]
  exact hne

theorem exec_readGuards (tag : Byte) (args : List Word) (s : State) :
    exec (.readGuards tag args) s = .next (manageRow 22 tag args s) := rfl

/-- An accepted READ GUARDS changes nothing but the timer and the answer (R94). -/
theorem exec_readGuards_of_empty (tag : Byte) {s : State} (h : s.ready = true) :
    exec (.readGuards tag []) s = .next ((restartTimer s).answering tag 22 .done
      (s.guards.cells.flatMap guardWords ++ [numWord (guardedCount s.guards)])) := by
  rw [exec_readGuards, manageRow_answers (r := .readGuards) _ BesideMgmt.id h (by simp) rfl]
  rw [act, actReadGuards, (judging_guards_ce_of_awake (awake_of_ready h) _).1]

/-! ## The statement -/

/-- Settles O38: what is guarded is read off the ranges, the words of SET GUARD describe a range or are refused, and its act then judges the fixed flag and the commit in flight (R92); READ GUARDS reports the ranges and their count. -/
theorem guardRangesJudged : Obligations.GuardRangesJudged := by
  unfold Obligations.GuardRangesJudged
  refine ⟨destGuarded_iff, quadGuarded_iff, ?_⟩
  intro tag s h t
  refine ⟨?steps, ?count, ?range, ?read, ?readCount⟩
  case steps =>
    intro i enabled low high fixed g busy after
    have named : (numWord i.val).index? 4 = some i := index?_numWord 4 (by norm_num) i
    have five : [numWord i.val, flagWord enabled, numWord low.val, numWord high.val, flagWord fixed].length ≤
        Config.maxArgs := by simp [Config.maxArgs]
    have described (hle : low ≤ high) := guardArgs?_of_le enabled hle fixed
    refine ⟨?disorder, ?isFixed, ?isBusy, ?isFree⟩
    case disorder =>
      exact fun hlt => row_refused .setGuard tag five (actSetGuard_of_none (.inr (guardArgs?_of_lt enabled hlt fixed))) h
    case isFixed => exact fun hle hf => exec_setGuard_of_fixed tag named (described hle) h hf
    case isBusy => exact fun hle hf hb => exec_setGuard_of_busy tag named (described hle) h hf hb
    case isFree => exact fun hle hf hb => exec_setGuard_of_free tag named (described hle) h hf hb
  case count => exact fun args hn hc => row_refused .setGuard tag hn (actSetGuard_of_count hc) h
  case range =>
    intro a b c d e hr
    have five : [a, b, c, d, e].length ≤ Config.maxArgs := by simp [Config.maxArgs]
    exact row_refused .setGuard tag five (actSetGuard_of_none (hr.imp index?_none guardArgs?_of_range)) h
  case read => exact exec_readGuards_of_empty tag h
  case readCount => exact fun args hne hn => row_refused .readGuards tag hn (actReadGuards_of_nonempty hne) h

end Machine

end Sys2Proof
end

section
/-! PROOF. ARM CUE, DISARM CUE and READ CUES of a ready part (R116 to R118): the words of a cue, the label that the words describe, and the one update of a cue that both editing commands make. -/

namespace Sys2Proof

namespace Machine

/-! ## The words of a cue (R114, R118) -/

/-- The ninth word is the frames waited of a cue that is DUE, and else the lateness of an outcome LATE, or 0. -/
theorem cueWords_eq (q : Cue) :
    cueWords q = [cueStateCode q.state, numWord (stagingCode q.bank), numWord q.feed.val, numWord q.label.hours,
      numWord q.label.minutes, numWord q.label.seconds, numWord q.label.frames, cueOutcomeCode q.outcome,
      if q.state = .due then numWord q.framesWaited else
        match q.outcome with
        | .late n => numWord n
        | .none | .done | .refusedGuarded | .refusedTableFull => 0] := by
  obtain ⟨state, bank, feed, label, fireLateness, framesWaited, dueMark, outcome⟩ := q
  cases state with
  | due => rfl
  | idle => cases outcome <;> rfl
  | armed => cases outcome <;> rfl

/-! ## The label that the words of ARM CUE describe (R116) -/

theorem labelArgs?_of_lt {h m sec fr : Nat} (hh : h < 24) (hm : m < 60) (hs : sec < 60) (hf : fr < 60) :
    labelArgs? (numWord h) (numWord m) (numWord sec) (numWord fr) = some ⟨h, m, sec, fr⟩ := by
  have read {k : Nat} (hk : k < 60) : (numWord k).toNat = k := numWord_toNat (by omega)
  rw [labelArgs?, read (k := h) (by omega), read hm, read hs, read hf, if_pos ⟨hh, hm, hs, hf⟩]

theorem labelArgs?_of_range {h m sec fr : Word}
    (hr : 24 ≤ h.toNat ∨ 60 ≤ m.toNat ∨ 60 ≤ sec.toNat ∨ 60 ≤ fr.toNat) : labelArgs? h m sec fr = none :=
  if_neg (by omega)

/-! ## A cue replaced, its request withdrawn (R116, R117) -/

/-- What ARM CUE and DISARM CUE do to the part: the cue's request leaves the waiting order and the cue becomes `q`. -/
def replaceCue (c : CueNo) (q : Cue) (s : State) : State := (withdrawCue c s).setCue c q

theorem besideMgmt_replaceCue (c : CueNo) (q : Cue) : BesideMgmt (replaceCue c q) := fun _ _ => rfl

/-- The waiting order from which a request is withdrawn is the one that stood before the timer was restarted. -/
theorem replaceCue_restartTimer {s : State} (h : s.awake = true) (c : CueNo) (q : Cue) :
    replaceCue c q (restartTimer s) =
      ((restartTimer s).setCe { s.ce with waiting := s.ce.waiting.filter fun r => r != .cue c }).setCue c q := by
  obtain ⟨m, hm⟩ := restarted_of_awake h
  rw [replaceCue, withdrawCue, hm]
  simp only [State.setMgmt_fields]

theorem judging_cues_of_awake {s : State} (h : s.awake = true) (c : Command) : (s.judging c).cues = s.cues := by
  obtain ⟨m, hm⟩ := judging_of_awake h c
  simp [hm]

/-! ## ARM CUE (R116) -/

/-- The cue that ARM CUE leaves: armed afresh, but for the last outcome of the cue before it. -/
def armedCue (b : Staging) (f : Feed) (label : Stamp) (outcome : CueOutcome) : Cue :=
  ⟨.armed, b, f, label, 0, 0, false, outcome⟩

theorem actArmCue_of_label {h m sec fr : Word} {label : Stamp} (hl : labelArgs? h m sec fr = some label)
    (c : CueNo) (b : Staging) (f : Feed) (s : State) :
    let q := armedCue b f label (s.cues.get c).outcome
    actArmCue [numWord c.val, numWord (stagingCode b), numWord f.val, h, m, sec, fr] s =
      .answered .done (cueWords q) (replaceCue c q s) := by
  simp only [actArmCue, index?_numWord 2 (by norm_num) c, stagingArg?_stagingCode, index?_numWord 8 (by norm_num) f, hl]
  rfl

theorem actArmCue_of_range {a b f h m sec fr : Word}
    (hr : 2 ≤ a.toNat ∨ (b ≠ 1 ∧ b ≠ 2) ∨ 8 ≤ f.toNat ∨ 24 ≤ h.toNat ∨ 60 ≤ m.toNat ∨ 60 ≤ sec.toNat ∨ 60 ≤ fr.toNat)
    (s : State) : actArmCue [a, b, f, h, m, sec, fr] s = refusedArgument s := by
  rw [actArmCue]
  split
  next ha hb hf hl =>
    obtain hcue | ⟨h1, h2⟩ | hfeed | hlabel := hr
    · simp [index?_none hcue] at ha
    · simp [stagingArg?_none h1 h2] at hb
    · simp [index?_none hfeed] at hf
    · simp [labelArgs?_of_range hlabel] at hl
  next => rfl

theorem actArmCue_of_count {args : List Word} (hc : args.length ≠ 7) (s : State) :
    actArmCue args s = refusedArgument s := by
  rw [actArmCue]
  rintro _ _ _ _ _ _ _ rfl
  exact hc rfl

theorem exec_armCue (tag : Byte) (args : List Word) (s : State) :
    exec (.armCue tag args) s = .next (manageRow 25 tag args s) := rfl

/-- An accepted ARM CUE arms the cue afresh, withdraws its request and answers with the cue's words (R116). -/
theorem exec_armCue_of_label (tag : Byte) {h m sec fr : Word} {label : Stamp} (hl : labelArgs? h m sec fr = some label)
    (c : CueNo) (b : Staging) (f : Feed) {s : State} (hs : s.ready = true) :
    let q := armedCue b f label (s.cues.get c).outcome
    exec (.armCue tag [numWord c.val, numWord (stagingCode b), numWord f.val, h, m, sec, fr]) s =
      .next ((replaceCue c q (restartTimer s)).answering tag 25 .done (cueWords q)) := by
  intro q
  rw [exec_armCue, manageRow_answers (r := .armCue) _ (besideMgmt_replaceCue c q) hs (by simp [Config.maxArgs]) rfl]
  rw [act, actArmCue_of_label hl, judging_cues_of_awake (awake_of_ready hs)]

/-! ## DISARM CUE (R117) -/

theorem actDisarmCue_of_cue (c : CueNo) (s : State) :
    let q := { s.cues.get c with state := .idle }
    actDisarmCue [numWord c.val] s = .answered .done (cueWords q) (replaceCue c q s) := by
  simp only [actDisarmCue, index?_numWord 2 (by norm_num) c]
  rfl

theorem actDisarmCue_of_range {a : Word} (ha : 2 ≤ a.toNat) (s : State) : actDisarmCue [a] s = refusedArgument s := by
  simp only [actDisarmCue, index?_none ha]

theorem actDisarmCue_of_count {args : List Word} (hc : args.length ≠ 1) (s : State) :
    actDisarmCue args s = refusedArgument s := by
  rw [actDisarmCue]
  rintro _ rfl
  exact hc rfl

theorem exec_disarmCue (tag : Byte) (args : List Word) (s : State) :
    exec (.disarmCue tag args) s = .next (manageRow 26 tag args s) := rfl

/-- An accepted DISARM CUE makes the cue IDLE, withdraws its request and answers with the cue's words (R117). -/
theorem exec_disarmCue_of_cue (tag : Byte) (c : CueNo) {s : State} (h : s.ready = true) :
    let q := { s.cues.get c with state := .idle }
    exec (.disarmCue tag [numWord c.val]) s =
      .next ((replaceCue c q (restartTimer s)).answering tag 26 .done (cueWords q)) := by
  intro q
  rw [exec_disarmCue, manageRow_answers (r := .disarmCue) _ (besideMgmt_replaceCue c q) h
    (length_singleton_le_maxArgs _) rfl]
  rw [act, actDisarmCue_of_cue, judging_cues_of_awake (awake_of_ready h)]

/-! ## READ CUES (R118) -/

theorem actReadCues_of_empty (s : State) :
    actReadCues [] s = .answered .done (cueWords (s.cues.get 0) ++ cueWords (s.cues.get 1)) s := by
  rw [actReadCues, Table.cells_eq_map_get]
  rfl

theorem actReadCues_of_nonempty {args : List Word} (hne : args ≠ []) (s : State) :
    actReadCues args s = refusedArgument s := by
  rw [actReadCues]
  exact hne

theorem exec_readCues (tag : Byte) (args : List Word) (s : State) :
    exec (.readCues tag args) s = .next (manageRow 27 tag args s) := rfl

/-- An accepted READ CUES changes nothing but the timer and the answer (R118). -/
theorem exec_readCues_of_empty (tag : Byte) {s : State} (h : s.ready = true) :
    exec (.readCues tag []) s = .next ((restartTimer s).answering tag 27 .done
      (cueWords (s.cues.get 0) ++ cueWords (s.cues.get 1))) := by
  rw [exec_readCues, manageRow_answers (r := .readCues) _ BesideMgmt.id h (by simp) rfl]
  rw [act, actReadCues_of_empty, judging_cues_of_awake (awake_of_ready h)]

/-! ## The statement -/

/-- Settles O46: the codes are read off their definitions; ARM CUE and DISARM CUE each replace one cue and withdraw its request, READ CUES reports both cues, and every other form is refused by its act. -/
theorem cueCommands : Obligations.CueCommands := by
  unfold Obligations.CueCommands
  refine ⟨⟨rfl, fun _ => rfl⟩, ?_⟩
  intro tag s ready words without
  have words_eq (q : Cue) : words q = cueWords q := (cueWords_eq q).symm
  have without_eq (c : CueNo) (q : Cue) : without c q = replaceCue c q (restartTimer s) :=
    (replaceCue_restartTimer (awake_of_ready ready) c q).symm
  refine ⟨?arm, ?armCount, ?disarmCount, ?readCount, ?armRange, ?disarm, ?disarmRange, ?read⟩
  case arm =>
    intro c b f h m sec fr hh hm hs hf q
    rw [words_eq, without_eq]
    exact exec_armCue_of_label tag (labelArgs?_of_lt hh hm hs hf) c b f ready
  case armCount => exact fun args hn hc => row_refused .armCue tag hn (actArmCue_of_count hc) ready
  case disarmCount => exact fun args hn hc => row_refused .disarmCue tag hn (actDisarmCue_of_count hc) ready
  case readCount =>
    exact fun args hn hc => row_refused .readCues tag hn (actReadCues_of_nonempty (mt List.length_eq_zero_iff.mpr hc)) ready
  case armRange =>
    intro a b f h m sec fr hr
    have seven : [a, b, f, h, m, sec, fr].length ≤ Config.maxArgs := by simp [Config.maxArgs]
    exact row_refused .armCue tag seven (actArmCue_of_range hr) ready
  case disarm =>
    intro c q
    rw [words_eq, without_eq]
    exact exec_disarmCue_of_cue tag c ready
  case disarmRange =>
    exact fun a ha => row_refused .disarmCue tag (length_singleton_le_maxArgs a) (actDisarmCue_of_range ha) ready
  case read =>
    rw [words_eq, words_eq]
    exact exec_readCues_of_empty tag ready

end Machine

end Sys2Proof
end

section
/-! PROOF. The Level Watch (chapter 8): what an offer leaves of the peaks (R135), what a judgment leaves of a track and of the log (R136, R138), the hand-over of the clip marks (R131, R140), and SET PRESENCE of a ready part (R141, R142). -/

namespace Sys2Proof

/-! ## Several places of a table changed in turn -/

namespace Table

variable {n m : Nat} {α : Type} (place : Fin m → Fin n) (change : Fin m → α → α)

theorem get_foldl_modify_of_ne {l : List (Fin m)} {j : Fin n} (hj : ∀ p ∈ l, place p ≠ j) (t : Table n α) :
    (l.foldl (fun t p => t.modify (place p) (change p)) t).get j = t.get j := by
  induction l generalizing t with
  | nil => rfl
  | cons p l ih =>
    obtain ⟨hp, hl⟩ := List.forall_mem_cons.mp hj
    rw [List.foldl_cons, ih hl, get_modify_other _ _ _ _ hp]

/-- Each of several different places is changed once, by its own change. -/
theorem get_foldl_modify_of_mem (hinj : Function.Injective place) {l : List (Fin m)} (hnd : l.Nodup) {p : Fin m}
    (hp : p ∈ l) (t : Table n α) :
    (l.foldl (fun t p => t.modify (place p) (change p)) t).get (place p) = change p (t.get (place p)) := by
  induction l generalizing t with
  | nil => exact absurd hp List.not_mem_nil
  | cons q l ih =>
    obtain ⟨hq, hl⟩ := List.nodup_cons.mp hnd
    rw [List.foldl_cons]
    by_cases hpq : p = q
    case pos =>
      subst hpq
      have others : ∀ r ∈ l, place r ≠ place p := fun r hr h => hq (hinj h ▸ hr)
      rw [get_foldl_modify_of_ne place change others, get_modify_same]
    case neg =>
      rw [ih hl (List.mem_of_ne_of_mem hpq hp), get_modify_other _ _ _ _ fun h => hpq (hinj h).symm]

/-- A stretch of the cells is what its places give. -/
theorem take_drop_cells (t : Table n α) {first count : Nat} (h : first + count ≤ n) :
    (t.cells.drop first).take count = (List.finRange count).map fun i => t.get ⟨first + i.val, by omega⟩ := by
  apply List.ext_getElem
  · have := t.size
    simp only [List.length_take, List.length_drop, List.length_map, List.length_finRange]
    omega
  · intro i _ _
    simp [get_eq_getElem]

end Table

namespace Machine

/-! ## Numbering and references (R134, R135, R138) -/

theorem ringTrack_injective (r : RingNo) : Function.Injective (ringTrack r) := by
  intro p q h
  have hval := congrArg Fin.val h
  simp only [ringTrack] at hval
  exact Fin.ext (by omega)

theorem trackRing_ringTrack (r : RingNo) (p : Fin 4) : trackRing (ringTrack r p) = r :=
  Fin.ext (by simp only [trackRing, ringTrack]; omega)

theorem eq_sourceOfNumber_iff (src : Source) (w : TrackNo) : src = sourceOfNumber w ↔ sourceNumber src = w := by
  constructor
  · rintro rfl
    exact sourceNumber_sourceOfNumber w
  · rintro rfl
    exact (sourceOfNumber_sourceNumber src).symm

/-- A track is referenced by the destinations in use that name its source (R138). -/
theorem trackReferenced_iff (b : Bank) (w : TrackNo) : trackReferenced b w = true ↔ ∃ x, inUseIn b x = true ∧
    ((∃ src, (b.entries.get x).source = some src ∧ sourceNumber src = w) ∨
      ∃ p, (b.entries.get x).partner = some p ∧ sourceNumber p.source = w) := by
  simp [trackReferenced, Option.any_eq_true, ← eq_sourceOfNumber_iff]

/-! ## Offers (R135) -/

section

variable (r : RingNo) (s : State)

theorem offerSet_eq_setTracks (x : SampleSet) : offerSet r x s = s.setTracks (offerSet r x s).watch.tracks := rfl

theorem offerSet_tracks_other (x : SampleSet) {w : TrackNo} (hw : trackRing w ≠ r) :
    (offerSet r x s).watch.tracks.get w = s.watch.tracks.get w := by
  have elsewhere : ∀ p ∈ List.finRange 4, ringTrack r p ≠ w := by
    rintro p - rfl
    exact hw (trackRing_ringTrack r p)
  exact Table.get_foldl_modify_of_ne (ringTrack r) _ elsewhere _

theorem offerSet_tracks_ring (x : SampleSet) (p : Fin 4) : (offerSet r x s).watch.tracks.get (ringTrack r p) =
    (s.watch.tracks.get (ringTrack r p)).offered (offeredMagnitude x p) :=
  Table.get_foldl_modify_of_mem (ringTrack r) (fun p (k : WatchedTrack) => k.offered (offeredMagnitude x p))
    (ringTrack_injective r) (List.nodup_finRange 4) (List.mem_finRange p) _

theorem offerSets_cons (x : SampleSet) (sets : List SampleSet) :
    offerSets r (x :: sets) s = offerSets r sets (offerSet r x s) := rfl

theorem offerSets_eq_setTracks (sets : List SampleSet) :
    offerSets r sets s = s.setTracks (offerSets r sets s).watch.tracks := by
  induction sets generalizing s with
  | nil => rfl
  | cons x sets ih =>
    rw [offerSets_cons]
    exact ih (offerSet r x s)

theorem offerSets_tracks_other (sets : List SampleSet) {w : TrackNo} (hw : trackRing w ≠ r) :
    (offerSets r sets s).watch.tracks.get w = s.watch.tracks.get w := by
  induction sets generalizing s with
  | nil => rfl
  | cons x sets ih => rw [offerSets_cons, ih, offerSet_tracks_other r s x hw]

/-- Of the tracks of the ring the peak alone moves: to the largest of itself and of what the sets offer (R135). -/
theorem offerSets_tracks_ring (sets : List SampleSet) (p : Fin 4) :
    let k := s.watch.tracks.get (ringTrack r p)
    (offerSets r sets s).watch.tracks.get (ringTrack r p) =
      { k with peak := sets.foldl (fun m x => max m (offeredMagnitude x p)) k.peak } := by
  induction sets generalizing s with
  | nil => rfl
  | cons x sets ih =>
    rw [offerSets_cons, ih, offerSet_tracks_ring]
    rfl

end

theorem offeredMagnitude_eq (x : SampleSet) (p : Fin 4) :
    offeredMagnitude x p = if x.active.get p then (x.samples.get p).toInt.natAbs else 0 :=
  apply_ite Int.natAbs _ _ _

/-! ## Judgments (R136, R138) -/

section

variable {threshold frames : Nat} {k : WatchedTrack}

theorem judgedTrack_peak : (judgedTrack threshold frames k).peak = 0 := by
  unfold judgedTrack
  split <;> rfl

theorem judgedTrack_of_reached (h : threshold ≤ k.peak) : judgedTrack threshold frames k = ⟨.present, 0, 0⟩ :=
  if_pos h

theorem judgedTrack_of_below (h : k.peak < threshold) : judgedTrack threshold frames k =
    ⟨if frames ≤ min 255 (k.below + 1) then .silent else k.presence, min 255 (k.below + 1), 0⟩ :=
  if_neg (not_le.mpr h)

/-- Below the threshold for fewer frames than the presence frames: the track stays in its state (R136). -/
theorem judgedTrack_of_waiting (h : k.peak < threshold) (hc : min 255 (k.below + 1) < frames) :
    judgedTrack threshold frames k = ⟨k.presence, min 255 (k.below + 1), 0⟩ := by
  rw [judgedTrack_of_below h, if_neg (not_le.mpr hc)]

/-- Below the threshold for the presence frames: the track is SILENT (R136). -/
theorem judgedTrack_of_silent (h : k.peak < threshold) (hc : frames ≤ min 255 (k.below + 1)) :
    judgedTrack threshold frames k = ⟨.silent, min 255 (k.below + 1), 0⟩ := by
  rw [judgedTrack_of_below h, if_pos hc]

end

section

variable (w : TrackNo) (s : State)

/-- A judgment moves its own track, and the log and the notice do not touch the tracks (R136). -/
theorem judgeTrack_tracks : (judgeTrack w s).watch.tracks =
    s.watch.tracks.set w (judgedTrack s.watch.threshold s.watch.frames (s.watch.tracks.get w)) := by
  simp only [judgeTrack]
  split <;> simp

theorem judgeTrack_tracks_same : (judgeTrack w s).watch.tracks.get w =
    judgedTrack s.watch.threshold s.watch.frames (s.watch.tracks.get w) := by
  rw [judgeTrack_tracks, Table.get_set_same]

theorem judgeTrack_tracks_other {w' : TrackNo} (h : w' ≠ w) :
    (judgeTrack w s).watch.tracks.get w' = s.watch.tracks.get w' := by
  rw [judgeTrack_tracks, Table.get_set_other _ _ _ _ h.symm]

/-- SILENCE is recorded when a referenced track goes from PRESENT to SILENT, and nothing else is (R138). -/
theorem judgeTrack_log :
    let k := s.watch.tracks.get w
    let k' := (judgeTrack w s).watch.tracks.get w
    (judgeTrack w s).log =
      if k.presence = .present ∧ k'.presence = .silent ∧ trackReferenced s.active w = true then
        (report .silence (.watchedTrack w) s).log
      else s.log := by
  rw [judgeTrack_tracks_same]
  simp only [judgeTrack]
  split
  · exact report_log_congr _ _ rfl rfl rfl
  · rfl

end

/-! ## The hand-over of the clip marks (R131, R140) -/

/-- The marks that are set are told of in ascending order, as one walk over them. -/
theorem handOverClips_eq (d : Domain) (s : State) : handOverClips d s = clearClips d
    (((List.finRange 16).filter fun k => s.clips.get (domainDest d k)).foldl
      (fun u k => report .clipping (.destination (domainDest d k)) u) s) := by
  rw [handOverClips, walk, List.foldl_filter]

theorem clearClips_get (d : Domain) (s : State) (x : Dest) :
    (clearClips d s).clips.get x = if destDomain x = d then false else s.clips.get x := by
  simp [clearClips]

theorem foldl_report_clips {α : Type} (reason : Reason) (src : α → FaultSource) (l : List α) (s : State) :
    (l.foldl (fun u a => report reason (src a) u) s).clips = s.clips :=
  walk_keeps (g := State.clips) (f := fun a u => report reason (src a) u) l (fun _ _ u => by simp) s

theorem handOverClips_get (d : Domain) (s : State) (x : Dest) :
    (handOverClips d s).clips.get x = if destDomain x = d then false else s.clips.get x := by
  rw [handOverClips_eq, clearClips_get, foldl_report_clips]

/-! ## The words of SET PRESENCE (R142) -/

/-- Digits of base 4 gathered from the last to the first are the sum of each digit at its place. -/
theorem foldr_base_four (n : Nat) (digit : Fin n → Nat) :
    ((List.finRange n).map digit).foldr (fun d acc => d + 4 * acc) 0 =
      ((List.finRange n).map fun i => digit i * 4 ^ i.val).sum := by
  induction n with
  | zero => rfl
  | succ n ih =>
    simp only [List.finRange_succ, List.map_cons, List.map_map, List.foldr_cons, List.sum_cons]
    rw [ih (digit ∘ Fin.succ), ← List.sum_map_mul_left]
    simp [Function.comp_def, pow_succ, mul_comm, mul_left_comm]

theorem presenceWord_eq (track : Fin 8 → WatchedTrack) : presenceWord ((List.finRange 8).map track) =
    numWord ((List.finRange 8).map fun i => presenceCode (track i).presence * 4 ^ i.val).sum := by
  rw [← foldr_base_four 8 fun i => presenceCode (track i).presence]
  simp only [presenceWord, numWord, List.foldr_map]

/-- The words of SET PRESENCE: the settings, and then the presence of eight tracks a word. -/
theorem presenceWords_eq (w : Watch) : presenceWords w =
    [numWord (w.threshold / 65536), numWord (w.threshold % 65536), numWord w.frames] ++
      (List.finRange 18).map fun k => numWord (((List.finRange 8).map fun i =>
        presenceCode (w.tracks.get ⟨8 * k.val + i.val, by omega⟩).presence * 4 ^ i.val).sum) := by
  rw [presenceWords, ← List.map_coe_finRange_eq_range, List.map_map]
  congr 1
  refine List.map_congr_left fun k _ => ?_
  rw [Function.comp_apply, Table.take_drop_cells _ (by omega), presenceWord_eq]

/-! ## SET PRESENCE (R141) -/

/-- The Level Watch becomes `w`. -/
def setWatch (w : Watch) (s : State) : State := { s with watch := w }

theorem besideMgmt_setWatch (w : Watch) : BesideMgmt (setWatch w) := fun _ _ => rfl

theorem heldThreshold_eq (a b : Word) : heldThreshold a b =
    if 8388607 < a.toNat * 65536 + b.toNat then 8388607 else a.toNat * 65536 + b.toNat := by
  rw [heldThreshold]
  split <;> omega

theorem heldFrames_eq (c : Word) : heldFrames c = if c = 0 then 1 else if 255 < c.toNat then 255 else c.toNat := by
  have zero_iff : c = 0 ↔ c.toNat = 0 := BitVec.toNat_eq
  simp only [heldFrames, Config.byteMax, zero_iff]
  split
  · omega
  · split <;> omega

theorem actSetPresence_of_empty (s : State) :
    actSetPresence [] s = .answered .done (presenceWords s.watch) s := rfl

theorem actSetPresence_of_settings (a b c : Word) (s : State) :
    let w : Watch := ⟨s.watch.tracks, heldThreshold a b, heldFrames c⟩
    actSetPresence [a, b, c] s = .answered
      (if w.threshold = a.toNat * 65536 + b.toNat ∧ w.frames = c.toNat then .done else .clamped)
      (presenceWords w) (setWatch w s) := by
  intro w
  have swapped : (if w.threshold ≠ a.toNat * 65536 + b.toNat ∨ w.frames ≠ c.toNat then Verdict.clamped else .done) =
      if w.threshold = a.toNat * 65536 + b.toNat ∧ w.frames = c.toNat then .done else .clamped := by
    simp only [← not_and_or, ite_not]
  rw [← swapped]
  rfl

theorem actSetPresence_of_count {args : List Word} (h0 : args.length ≠ 0) (h3 : args.length ≠ 3) (s : State) :
    actSetPresence args s = refusedArgument s := by
  match args with
  | [] => exact absurd rfl h0
  | [_, _, _] => exact absurd rfl h3
  | [_] | [_, _] | _ :: _ :: _ :: _ :: _ => rfl

theorem judging_watch_of_awake {s : State} (h : s.awake = true) (c : Command) : (s.judging c).watch = s.watch := by
  obtain ⟨m, hm⟩ := judging_of_awake h c
  simp [hm]

theorem exec_setPresence (tag : Byte) (args : List Word) (s : State) :
    exec (.setPresence tag args) s = .next (manageRow 32 tag args s) := rfl

section

variable (tag : Byte) {s : State} (h : s.ready = true)
include h

/-- SET PRESENCE without words changes nothing but the timer and the answer (R142). -/
theorem exec_setPresence_of_empty : exec (.setPresence tag []) s =
    .next ((restartTimer s).answering tag 32 .done (presenceWords s.watch)) := by
  rw [exec_setPresence, manageRow_answers (r := .setPresence) _ BesideMgmt.id h (by simp) rfl]
  rw [act, actSetPresence_of_empty, judging_watch_of_awake (awake_of_ready h)]

/-- SET PRESENCE with its three words stores the settings brought into range and reports what it stored (R141, R142). -/
theorem exec_setPresence_of_settings (a b c : Word) :
    let w : Watch := ⟨s.watch.tracks, heldThreshold a b, heldFrames c⟩
    exec (.setPresence tag [a, b, c]) s = .next ((setWatch w (restartTimer s)).answering tag 32
      (if w.threshold = a.toNat * 65536 + b.toNat ∧ w.frames = c.toNat then .done else .clamped) (presenceWords w)) := by
  intro w
  rw [exec_setPresence, manageRow_answers (r := .setPresence) _ (besideMgmt_setWatch w) h
    (length_le_maxArgs_of_le_three (by simp)) rfl]
  rw [act, actSetPresence_of_settings, judging_watch_of_awake (awake_of_ready h)]

end

/-! ## The statement -/

/-- Settles O33: an offer moves the peaks of its ring alone, a judgment its own track and the log as `judgedTrack` says, a hand-over is one walk over the marks that are set, and each form of SET PRESENCE is answered by its act. -/
theorem presenceJudgedAndSet : Obligations.PresenceJudgedAndSet := by
  unfold Obligations.PresenceJudgedAndSet
  refine ⟨?numbering, ?offers, fun _ _ _ => rfl, ?ofQuad, ?clips, ?judged, ?command⟩
  case numbering =>
    exact ⟨rfl, fun _ _ => rfl, fun _ => rfl, fun _ _ => rfl, fun _ => rfl, fun _ _ => rfl, trackReferenced_iff⟩
  case offers =>
    intro r sets s t
    refine ⟨offerSets_eq_setTracks r s sets, fun _ => offerSets_tracks_other r s sets, fun p => ?_⟩
    simp only [← offeredMagnitude_eq]
    exact offerSets_tracks_ring r s sets p
  case ofQuad => exact fun f k s => ⟨fun h => if_pos h, fun h => if_neg h⟩
  case clips =>
    intro d s t marked told
    have ht : t = clearClips d told := handOverClips_eq d s
    exact ⟨by rw [ht]; rfl, by rw [ht]; rfl, handOverClips_get d s⟩
  case judged =>
    intro w s k count t k'
    have hk' : k' = judgedTrack s.watch.threshold s.watch.frames k := judgeTrack_tracks_same w s
    have hlog : t.log = if k.presence = .present ∧ k'.presence = .silent ∧ trackReferenced s.active w = true then
        (report .silence (.watchedTrack w) s).log else s.log := judgeTrack_log w s
    refine ⟨fun _ => judgeTrack_tracks_other w s, hk' ▸ judgedTrack_peak, ?reached,
      fun below => ⟨?fallen, ?waiting, ?silent⟩⟩
    case reached =>
      intro reached
      rw [judgedTrack_of_reached reached] at hk'
      rw [hk'] at hlog
      exact ⟨by rw [hk'], by rw [hk'], by simpa using hlog⟩
    case fallen => rw [hk', judgedTrack_of_below below]
    case waiting =>
      intro hc
      rw [judgedTrack_of_waiting below hc] at hk'
      rw [hk'] at hlog
      refine ⟨by rw [hk'], hlog.trans (if_neg ?_)⟩
      rintro ⟨present, silent, -⟩
      cases present.symm.trans silent
    case silent =>
      intro hc
      rw [judgedTrack_of_silent below hc] at hk'
      rw [hk'] at hlog
      exact ⟨by rw [hk'], by simpa using hlog⟩
  case command =>
    intro tag s h words
    have words_eq (threshold frames : Nat) : presenceWords ⟨s.watch.tracks, threshold, frames⟩ = words threshold frames :=
      presenceWords_eq _
    refine ⟨?report, ?count, fun a b c => ?settings⟩
    case report =>
      rw [← words_eq]
      exact exec_setPresence_of_empty tag h
    case count => exact fun args hn h0 h3 => row_refused .setPresence tag hn (actSetPresence_of_count h0 h3) h
    case settings =>
      intro asked threshold frames
      have hthreshold : threshold = heldThreshold a b := (heldThreshold_eq a b).symm
      have hframes : frames = heldFrames c := (heldFrames_eq c).symm
      rw [← words_eq, hthreshold, hframes]
      exact exec_setPresence_of_settings tag h a b c

end Machine

end Sys2Proof
end

section
/-! PROOF. Faults and notices (chapter 10): what a fault leaves in the log by the log it meets, what READ FAULTS and CLEAR FAULTS of a ready part answer, and when a notice for the newest record is placed (R155, R157 to R161). -/

namespace Sys2Proof

namespace Machine

/-! ## The three ways a fault is taken (R155) -/

/-- A record joins the end of the list. -/
def appendRecord (r : FaultRecord) (s : State) : State := s.setLog { s.log with records := s.log.records ++ [r] }

section

variable (reason : Reason) (src : FaultSource) (s : State)

theorem report_of_recorded (h : (s.log.records.any fun r => r.isFor reason src) = true) :
    report reason src s = s.setLog { s.log with
      records := s.log.records.map fun r => if r.isFor reason src then r.collapse else r } :=
  if_pos h

theorem report_of_room (h : (s.log.records.any fun r => r.isFor reason src) = false)
    (hl : s.log.records.length < Config.logSize) :
    let new : FaultRecord := ⟨reason, src, s.ru.frameCount, 0⟩
    report reason src s = noticeCondition new (appendRecord new s) := by
  simp [report, appendRecord, h, hl]

theorem report_of_full (h : (s.log.records.any fun r => r.isFor reason src) = false)
    (hl : Config.logSize ≤ s.log.records.length) : report reason src s = s.setLog { s.log with overflow := true } := by
  simp [report, h, Nat.not_lt.mpr hl]

end

/-- A record for this reason and source has one repeat more, up to 255; another is as it was (R155). -/
theorem collapse_if_isFor (reason : Reason) (src : FaultSource) (r : FaultRecord) :
    (if r.isFor reason src then r.collapse else r) =
      if r.reason = reason ∧ r.source = src then { r with repeats := min 255 (r.repeats + 1) } else r := by
  simp only [isFor_iff]
  rfl

/-! ## The notice condition that an append raises (R157) -/

section

variable {s : State} (r : FaultRecord)

theorem noticeCondition_of_held (h : s.log.masked = true ∨ s.mgmt.notice ≠ none) :
    noticeCondition r s = s.setLog { s.log with pending := true } := by
  have held : (s.log.masked || s.mgmt.notice.isSome) = true := by simpa [Option.isSome_iff_ne_none] using h
  exact if_pos held

theorem noticeCondition_of_free (unmasked : s.log.masked = false) (free : s.mgmt.notice = none) :
    noticeCondition r s = s.setMgmt { s.mgmt with notice := some (noticeFor s.log r) } := by
  simp [noticeCondition, unmasked, free]

/-- A notice condition touches neither the records nor overflow nor the mask. -/
theorem noticeCondition_keeps : (noticeCondition r s).log.records = s.log.records ∧
    (noticeCondition r s).log.overflow = s.log.overflow ∧ (noticeCondition r s).log.masked = s.log.masked := by
  unfold noticeCondition
  split <;> exact ⟨rfl, rfl, rfl⟩

end

/-- Settles O47: a fault goes one of three ways, by whether its record is present and whether the log has room; an append then raises its notice condition. -/
theorem faultIsCollapsedAppendedOrLost : Obligations.FaultIsCollapsedAppendedOrLost := by
  unfold Obligations.FaultIsCollapsedAppendedOrLost
  intro reason src s l t present new
  refine ⟨?collapsed, ?appended, report_of_full reason src s, report_wf reason src⟩
  case collapsed =>
    intro recorded
    have ht := report_of_recorded reason src s recorded
    simp only [collapse_if_isFor] at ht
    exact ht
  case appended =>
    intro absent room
    have ht : t = noticeCondition new (appendRecord new s) := report_of_room reason src s absent room
    obtain ⟨records, overflow, masked⟩ := noticeCondition_keeps (s := appendRecord new s) new
    rw [ht]
    refine ⟨records, overflow, masked, fun held => ?held, fun unmasked free => ?free⟩
    case held =>
      rw [noticeCondition_of_held (s := appendRecord new s) new held]
      exact ⟨rfl, rfl⟩
    case free =>
      have count : (appendRecord new s).log.records.length = l.records.length + 1 := List.length_append
      rw [noticeCondition_of_free (s := appendRecord new s) new unmasked free, noticeFor, count]
      exact ⟨rfl, rfl⟩

/-! ## The commands for the log: what a command is judged on -/

section

variable {s : State} (h : s.awake = true)
include h

theorem restartTimer_log_of_awake : (restartTimer s).log = s.log := by
  simp [restartTimer_of_awake s h]

theorem restartTimer_notice_of_awake : (restartTimer s).mgmt.notice = s.mgmt.notice := by
  simp [restartTimer_of_awake s h]

theorem judging_log_of_awake (c : Command) : (s.judging c).log = s.log := by
  obtain ⟨m, hm⟩ := judging_of_awake h c
  simp [hm]

end

theorem besideMgmt_setLog (l : FaultLog) : BesideMgmt (·.setLog l) := fun _ _ => rfl

/-! ## READ FAULTS (R159) -/

/-- The words of READ FAULTS from position `a`, with the records `found` reported (R159). -/
def readFaultsWords (l : FaultLog) (a : Word) (found : List FaultRecord) : List Word :=
  [numWord l.records.length, flagWord l.overflow, flagWord l.masked, flagWord l.pending, a, numWord found.length] ++
    found.flatMap faultWords

theorem actReadFaults_of_fits {a b : Word} (fits : 1 ≤ a.toNat ∧ a.toNat ≤ 8 ∧ 1 ≤ b.toNat ∧ b.toNat ≤ 4) (s : State) :
    actReadFaults [a, b] s = .answered .done
      (readFaultsWords s.log a ((s.log.records.drop (a.toNat - 1)).take b.toNat))
      (s.setLog { s.log with pending := false }) :=
  if_pos fits

theorem actReadFaults_of_range {a b : Word} (h : ¬(1 ≤ a.toNat ∧ a.toNat ≤ 8 ∧ 1 ≤ b.toNat ∧ b.toNat ≤ 4)) (s : State) :
    actReadFaults [a, b] s = refusedArgument s :=
  if_neg h

theorem actReadFaults_of_count {args : List Word} (hc : args.length ≠ 2) (s : State) :
    actReadFaults args s = refusedArgument s := by
  rw [actReadFaults]
  rintro _ _ rfl
  exact hc rfl

theorem exec_readFaults (tag : Byte) (args : List Word) (s : State) :
    exec (.readFaults tag args) s = .next (manageRow 48 tag args s) := rfl

/-- An accepted READ FAULTS reports the log as it stood and then clears pending alone (R159). -/
theorem exec_readFaults_of_fits (tag : Byte) {a b : Word}
    (fits : 1 ≤ a.toNat ∧ a.toNat ≤ 8 ∧ 1 ≤ b.toNat ∧ b.toNat ≤ 4) {s : State} (h : s.ready = true) :
    exec (.readFaults tag [a, b]) s =
      .next (((restartTimer s).setLog { s.log with pending := false }).answering tag 48 .done
        (readFaultsWords s.log a ((s.log.records.drop (a.toNat - 1)).take b.toNat))) := by
  rw [exec_readFaults, manageRow_answers (r := .readFaults) _ (besideMgmt_setLog { s.log with pending := false }) h
    (length_le_maxArgs_of_le_three (by simp)) rfl]
  rw [act, actReadFaults_of_fits fits, judging_log_of_awake (awake_of_ready h)]

/-! ## CLEAR FAULTS (R160) -/

theorem actClearFaults_of_position {a : Word} (ha : a.toNat ≤ 8) (s : State) :
    let l := clearedLog a.toNat s.log
    actClearFaults [a] s = .answered .done
      [numWord (s.log.records.length - l.records.length), numWord l.records.length] (s.setLog l) :=
  if_pos ha

theorem actClearFaults_of_range {a : Word} (ha : 8 < a.toNat) (s : State) :
    actClearFaults [a] s = refusedArgument s :=
  if_neg (Nat.not_le.mpr ha)

theorem actClearFaults_of_count {args : List Word} (hc : args.length ≠ 1) (s : State) :
    actClearFaults args s = refusedArgument s := by
  rw [actClearFaults]
  rintro _ rfl
  exact hc rfl

/-- An emptied log has neither overflow nor pending; a log that keeps a record keeps both flags (R160). -/
theorem clearedLog_eq (position : Nat) (l : FaultLog) :
    let kept := keptRecords position l.records
    clearedLog position l = { l with
      records := kept
      overflow := if kept = [] then false else l.overflow
      pending := if kept = [] then false else l.pending } := by
  intro kept
  show { l with records := kept, overflow := l.overflow && !kept.isEmpty, pending := l.pending && !kept.isEmpty } = _
  cases kept with
  | nil => simp
  | cons r rest => simp

theorem exec_clearFaults (tag : Byte) (args : List Word) (s : State) :
    exec (.clearFaults tag args) s = .next (manageRow 49 tag args s) := rfl

/-- An accepted CLEAR FAULTS changes the log alone, and counts the records removed and those that remain (R160). -/
theorem exec_clearFaults_of_position (tag : Byte) {a : Word} (ha : a.toNat ≤ 8) {s : State} (h : s.ready = true) :
    let l := clearedLog a.toNat s.log
    exec (.clearFaults tag [a]) s = .next (((restartTimer s).setLog l).answering tag 49 .done
      [numWord (s.log.records.length - l.records.length), numWord l.records.length]) := by
  intro l
  rw [exec_clearFaults, manageRow_answers (r := .clearFaults) _ (besideMgmt_setLog l) h
    (length_singleton_le_maxArgs _) rfl]
  rw [act, actClearFaults_of_position ha, judging_log_of_awake (awake_of_ready h)]

/-- Settles O48: each accepted form is a management row whose act answers and changes the log alone; every other form is refused by its act. -/
theorem readAndClearFaults : Obligations.ReadAndClearFaults := by
  unfold Obligations.ReadAndClearFaults
  intro tag s ready l t
  refine ⟨fun a b => ?read, ?readCount, ?clearCount, fun a => ?clear⟩
  case read =>
    have two : [a, b].length ≤ Config.maxArgs := length_le_maxArgs_of_le_three (by simp)
    exact ⟨fun fits => exec_readFaults_of_fits tag fits ready,
      fun hr => row_refused .readFaults tag two (actReadFaults_of_range hr) ready⟩
  case readCount => exact fun args hn hc => row_refused .readFaults tag hn (actReadFaults_of_count hc) ready
  case clearCount => exact fun args hn hc => row_refused .clearFaults tag hn (actClearFaults_of_count hc) ready
  case clear =>
    intro kept
    have kept_eq : keptRecords a.toNat l.records = kept := by simp [keptRecords, kept, BitVec.toNat_eq]
    refine ⟨fun ha => ?_, fun ha =>
      row_refused .clearFaults tag (length_singleton_le_maxArgs a) (actClearFaults_of_range ha) ready⟩
    have cleared := exec_clearFaults_of_position tag ha ready
    rw [clearedLog_eq, kept_eq] at cleared
    exact cleared

/-! ## A row whose effect reaches into Management beside the executor's own fields -/

/-- The executor's own fields of Management: the queue, the state of the CX and the discard flag. -/
def setExecutor (queue : List Command) (cx : CxState) (discard : Bool) (s : State) : State :=
  s.setMgmt { s.mgmt with queue := queue, cx := cx, discard := discard }

/-- An operation that neither reads nor changes the executor's own fields. -/
def BesideExecutor (g : State → State) : Prop :=
  ∀ x queue cx discard, g (setExecutor queue cx discard x) = setExecutor queue cx discard (g x)

@[simp] theorem setExecutor_log (queue : List Command) (cx : CxState) (discard : Bool) (s : State) :
    (setExecutor queue cx discard s).log = s.log := rfl

theorem judging_eq_setExecutor (s : State) (c : Command) :
    s.judging c = setExecutor [c] .executing (restartTimer s).mgmt.discard (restartTimer s) := rfl

theorem setExecutor_of_restarted {s : State} (h : s.ready = true) :
    setExecutor [] .idle false (restartTimer s) = restartTimer s := by
  obtain ⟨queue, cx, discard⟩ := restarted_fields h
  rw [setExecutor, ← queue, ← cx, ← discard]
  rfl

/-- A management row of a ready part whose act answers with an effect beside the executor: the effect on the part whose timer has been restarted, and one more answer (R164, R165, R168). -/
theorem manageRow_answers_of_besideExecutor {code tag : Byte} {args words : List Word} {s : State} {r : CommandRow}
    {v : Verdict} {g : State → State} (hg : BesideExecutor g) (h : s.ready = true) (hn : args.length ≤ Config.maxArgs)
    (hr : codeRow? code = some r)
    (ha : act r args (s.judging ⟨tag, code, args⟩) = .answered v words (g (s.judging ⟨tag, code, args⟩))) :
    manageRow code tag args s = (g (restartTimer s)).answering tag code v words := by
  have discard := (restarted_fields h).2.2
  have judged : g (s.judging ⟨tag, code, args⟩) = setExecutor [⟨tag, code, args⟩] .executing false (g (restartTimer s)) := by
    rw [judging_eq_setExecutor, hg, discard]
  have idle : g (restartTimer s) = setExecutor [] .idle false (g (restartTimer s)) := by
    rw [← hg, setExecutor_of_restarted h]
  rw [manageRow_of_answered h hn hr ha (by rw [judged]; rfl) (by rw [judged]; rfl), judged, idle]
  rfl

/-! ## A notice for the newest record (R158, R161) -/

section

variable {s : State}

theorem noticeForNewest_of_due {r : FaultRecord} (newest : s.log.records.getLast? = some r)
    (pending : s.log.pending = true) (unmasked : s.log.masked = false) (free : s.mgmt.notice = none) :
    noticeForNewest s = (s.setMgmt { s.mgmt with notice := some (noticeFor s.log r) }).setLog
      { s.log with pending := false } := by
  simp [noticeForNewest, newest, pending, unmasked, free]

theorem noticeForNewest_of_not_due
    (h : ¬(s.log.pending = true ∧ s.log.masked = false ∧ s.mgmt.notice = none)) : noticeForNewest s = s := by
  have notDue : ¬(s.log.pending && !s.log.masked && s.mgmt.notice.isNone) = true := by simpa [and_assoc] using h
  exact if_neg notDue

theorem noticeForNewest_of_no_record (empty : s.log.records.getLast? = none) : noticeForNewest s = s := by
  simp [noticeForNewest, empty]

end

theorem besideExecutor_noticeForNewest : BesideExecutor noticeForNewest := by
  intro x queue cx discard
  by_cases due : x.log.pending = true ∧ x.log.masked = false ∧ x.mgmt.notice = none
  · obtain ⟨pending, unmasked, free⟩ := due
    cases newest : x.log.records.getLast? with
    | some r =>
      rw [noticeForNewest_of_due newest pending unmasked free,
        noticeForNewest_of_due (s := setExecutor queue cx discard x) newest pending unmasked free]
      rfl
    | none =>
      rw [noticeForNewest_of_no_record newest,
        noticeForNewest_of_no_record (s := setExecutor queue cx discard x) newest]
  · rw [noticeForNewest_of_not_due due, noticeForNewest_of_not_due (s := setExecutor queue cx discard x) due]

/-! ## SET NOTICES (R161) -/

/-- What SET NOTICES does to the part: the mask takes a value, and a notice that is then due is placed. -/
def maskNotices (masked : Bool) (s : State) : State := noticeForNewest (s.setLog { s.log with masked := masked })

theorem besideExecutor_maskNotices (masked : Bool) : BesideExecutor (maskNotices masked) := fun x queue cx discard =>
  besideExecutor_noticeForNewest (x.setLog { x.log with masked := masked }) queue cx discard

/-- Placing a notice leaves the mask as it was set, and the records. -/
theorem noticeWords_maskNotices (masked : Bool) (s : State) : noticeWords (maskNotices masked s).log =
    [flagWord masked, flagWord (maskNotices masked s).log.pending, numWord s.log.records.length] := by
  obtain ⟨_, _, placed, _⟩ := noticeForNewest_eq (s.setLog { s.log with masked := masked })
  rw [maskNotices, placed]
  rfl

theorem actSetNotices_of_empty (s : State) : actSetNotices [] s =
    .answered .done (noticeWords (maskNotices s.log.masked s).log) (maskNotices s.log.masked s) := rfl

theorem actSetNotices_of_mask (masked : Bool) (s : State) : actSetNotices [flagWord masked] s =
    .answered .done (noticeWords (maskNotices masked s).log) (maskNotices masked s) := by
  simp [actSetNotices, maskNotices]

theorem actSetNotices_of_range {w : Word} (hw : 2 ≤ w.toNat) (s : State) : actSetNotices [w] s = refusedArgument s := by
  simp [actSetNotices, flag?_none hw]

theorem actSetNotices_of_count {args : List Word} (hc : 2 ≤ args.length) (s : State) :
    actSetNotices args s = refusedArgument s := by
  match args with
  | [] | [_] => simp at hc
  | _ :: _ :: _ => rfl

theorem exec_setNotices (tag : Byte) (args : List Word) (s : State) :
    exec (.setNotices tag args) s = .next (manageRow 50 tag args s) := rfl

/-- A form of SET NOTICES that names a mask, or leaves it, sets it and reports what then holds (R161). -/
theorem exec_setNotices_of_mask (tag : Byte) {args : List Word} (masked : Bool) {s : State} (h : s.ready = true)
    (hn : args.length ≤ Config.maxArgs)
    (ha : ∀ c, actSetNotices args (s.judging c) =
      .answered .done (noticeWords (maskNotices masked (s.judging c)).log) (maskNotices masked (s.judging c))) :
    exec (.setNotices tag args) s =
      .next ((maskNotices masked (restartTimer s)).answering tag 50 .done
        [flagWord masked, flagWord (maskNotices masked (restartTimer s)).log.pending, numWord s.log.records.length]) := by
  rw [exec_setNotices, manageRow_answers_of_besideExecutor (r := .setNotices) (besideExecutor_maskNotices masked) h hn rfl
    (ha _)]
  rw [judging_eq_setExecutor, besideExecutor_maskNotices, setExecutor_log, noticeWords_maskNotices,
    restartTimer_log_of_awake (awake_of_ready h)]

/-- The part after SET NOTICES, by its newest record and by whether a notice for it is due (R161). -/
theorem maskNotices_restartTimer {s : State} (h : s.awake = true) (masked : Bool) :
    let t := (restartTimer s).setLog { s.log with masked := masked }
    maskNotices masked (restartTimer s) =
      match s.log.records.getLast? with
      | some r =>
        if s.log.pending = true ∧ masked = false ∧ s.mgmt.notice = none then
          (t.setLog { s.log with masked := masked, pending := false }).setMgmt
            { t.mgmt with notice := some ⟨r.reason, r.source, s.log.records.length⟩ }
        else t
      | none => t := by
  intro t
  have ht : maskNotices masked (restartTimer s) = noticeForNewest t := by
    rw [maskNotices, restartTimer_log_of_awake h]
  have notice : t.mgmt.notice = s.mgmt.notice := restartTimer_notice_of_awake h
  rw [ht]
  split
  next r newest =>
    split
    next due =>
      obtain ⟨pending, unmasked, free⟩ := due
      exact noticeForNewest_of_due (s := t) newest pending unmasked (notice.trans free)
    next notDue =>
      rw [← notice] at notDue
      exact noticeForNewest_of_not_due (s := t) notDue
  next empty => exact noticeForNewest_of_no_record (s := t) empty

/-! ## A notice that leaves the AQ (R158) -/

theorem drainQueue_of_notice {f : Feed} {n : Notice} {s : State} (place : (s.fr.get f).place = none)
    (feed : s.mgmt.answerFeed = f) (notice : s.mgmt.notice = some n) :
    drainQueue f s = noticeForNewest (s.setMgmt { s.mgmt with notice := none }) := by
  simp [drainQueue, place, feed, notice]

/-- Settles O49: SET NOTICES in every form is judged by its act, and its effect and the leaving of a notice both come to a notice for the newest record, placed when it is due. -/
theorem noticesFollowMask : Obligations.NoticesFollowMask := by
  unfold Obligations.NoticesFollowMask
  refine ⟨?command, ?leaving⟩
  case command =>
    intro tag s ready after answered
    have after_eq (masked : Bool) : after masked = maskNotices masked (restartTimer s) :=
      (maskNotices_restartTimer (awake_of_ready ready) masked).symm
    have answered_eq (masked : Bool) : answered masked =
        .next ((maskNotices masked (restartTimer s)).answering tag 50 .done
          [flagWord masked, flagWord (maskNotices masked (restartTimer s)).log.pending, numWord s.log.records.length]) := by
      simp only [answered, after_eq]
    refine ⟨?report, fun m => ?mask, ?count, ?range⟩
    case report =>
      rw [answered_eq]
      refine exec_setNotices_of_mask tag s.log.masked ready (by simp) fun c => ?_
      rw [actSetNotices_of_empty, judging_log_of_awake (awake_of_ready ready)]
    case mask =>
      rw [answered_eq]
      exact exec_setNotices_of_mask tag m ready (length_singleton_le_maxArgs _) fun c => actSetNotices_of_mask m _
    case count => exact fun args hn hc => row_refused .setNotices tag hn (actSetNotices_of_count hc) ready
    case range =>
      exact fun w hw => row_refused .setNotices tag (length_singleton_le_maxArgs w) (actSetNotices_of_range hw) ready
  case leaving =>
    intro f n s place feed notice
    rw [drainQueue_of_notice place feed notice]
    refine ⟨fun r newest pending unmasked => ?brings, fun h => ?stays⟩
    case brings =>
      exact noticeForNewest_of_due (s := s.setMgmt { s.mgmt with notice := none }) newest pending unmasked rfl
    case stays =>
      refine noticeForNewest_of_not_due fun ⟨pending, unmasked, _⟩ => ?_
      obtain notPending | masked := h
      · exact absurd pending (by simp [notPending])
      · exact absurd unmasked (by simp [masked])

end Machine

end Sys2Proof
end

section
/-! PROOF. The form of the Fault Log (R155, R158): the few leaf operations that write the log keep it, and every other one leaves the log alone. -/

namespace Sys2Proof

namespace Machine

/-- What an operation leaves of the log in form, when it leaves the log. -/
theorem log_wf_of_eq {s t : State} (e : t.log = s.log) (h : s.log.wf = true) : t.log.wf = true := e ▸ h

/-- A cleared log holds a part of the records it held, and pending only with a record (R160). -/
theorem clearedLog_wf {l : FaultLog} (n : Nat) (h : l.wf = true) : (clearedLog n l).wf = true := by
  rw [FaultLog.wf_iff] at h ⊢
  obtain ⟨size, distinct, repeats, pending⟩ := h
  have sub : (keptRecords n l.records).Sublist l.records := by
    unfold keptRecords
    split
    · exact List.nil_sublist _
    · exact List.eraseIdx_sublist _ _
  refine ⟨sub.length_le.trans size, (sub.map _).nodup distinct, fun r hr => repeats r (sub.subset hr), ?_⟩
  intro hp hnil
  simp only [clearedLog] at hp hnil
  simp [hnil] at hp

/-- The log's form is kept by each leaf operation of the events. -/
theorem logForm_keptByEvents : KeptByEvents fun s => s.log.wf = true where
  free k h := log_wf_of_eq (k.log rfl) h
  report reason src _ h := report_wf reason src h
  notice _ h := noticeForNewest_wf h
  ce _ _ _ h := h
  switched d running _ s _ h := log_wf_of_eq ((frame_switchDomain s d running).log rfl) h
  accept _ _ _ h := h
  complete _ _ _ _ _ h := h
  resetRing r s h := log_wf_of_eq ((frame_resetRing s r).log rfl) h
  starveRing r s h := log_wf_of_eq ((frame_starveRing s r).log rfl) h
  startTakePoints d s h := log_wf_of_eq ((frame_startTakePoints s d).log rfl) h
  judgeTakePoints d s h := log_wf_of_eq ((frame_judgeTakePoints s d).log rfl) h
  writeEvent r sets s h := keeps_writeEvent (P := fun s => s.log.wf = true) (fun _ _ _ h => h)
    (fun _ _ h => report_wf _ _ (log_wf_of_eq rfl h)) r sets s h
  emission d s h := keeps_emission (P := fun s => s.log.wf = true) (fun k h => log_wf_of_eq (k.log rfl) h)
    (fun reason src _ h => report_wf reason src h) (fun _ _ h => report_wf _ _ (log_wf_of_eq rfl h))
    (fun d s h => log_wf_of_eq ((frame_advanceTakes s d).log rfl) h)
    (fun d s h => log_wf_of_eq ((frame_advanceRamps s d).log rfl) h) d s h
  endRamps d s h := log_wf_of_eq ((frame_endRamps s d).log rfl) h

theorem setStaging_log (b : Staging) (k : Bank) (s : State) : (setStaging b k s).log = s.log := by cases b <;> rfl

/-- The log's form is kept by each leaf operation of a step. -/
theorem logForm_keptBySteps : KeptBySteps fun s => s.log.wf = true where
  toKeptByEvents := logForm_keptByEvents
  settings k _ h := log_wf_of_eq (k.log rfl) h
  presence _ _ _ _ h := h
  writeEntry _ _ _ _ _ _ _ _ _ _ _ _ _ _ h := log_wf_of_eq (setStaging_log _ _ _) h
  writeMode _ _ _ _ h := log_wf_of_eq (setStaging_log _ _ _) h
  copyBank _ _ _ h := log_wf_of_eq (setStaging_log _ _ _) h
  setGuard _ _ _ _ _ _ _ _ h := h
  storeFailsafe _ _ h := h
  interrupted _ h := h
  written _ h := h
  faultsRead _ h := wf_of_pending h (by simp)
  faultsCleared n _ h := clearedLog_wf n h
  masked _ _ h := h
  startUp _ _ _ := (by decide : FaultLog.start.wf = true)

/-- Settles O54: the form of the log is kept by every leaf operation of a step, hence by the step. -/
theorem faultLogInvariant : Obligations.FaultLogInvariant := by
  unfold Obligations.FaultLogInvariant
  exact fun s t form next => logForm_keptBySteps.step s t form next

end Machine

end Sys2Proof
end

section
/-! PROOF. What the part stores is in range (R74, R91, R134, R173, R175): the banks wherever they are held, the old entries of the ramps, the guard ranges, the settings of the Level Watch and the store. -/

namespace Sys2Proof

namespace Machine

/-! ## The form, part by part -/

/-- The guard ranges an image holds have low not above high (R91). -/
def ImageContents.guardsFit (i : ImageContents) : Prop := ∀ g, (i.guards.get g).low ≤ (i.guards.get g).high

/-- What the part stores is in range, each bank, ramp, range and setting by itself. -/
structure StoredInForm (s : State) : Prop where
  active : s.active.wf = true
  s0 : s.s0.wf = true
  s1 : s.s1.wf = true
  failsafe : s.failsafe.wf = true
  image : ∀ i, s.store.image = some i → i.bank.wf = true ∧ i.guardsFit
  writing : ∀ i, s.store.writing = some i → i.bank.wf = true ∧ i.guardsFit
  snapshot : ∀ c, s.ce.inFlight = some c → c.snapshot.wf = true
  ramps : ∀ x k, s.ramps.get x = some k → k.old.wf = true
  guards : ∀ i, (s.guards.get i).low ≤ (s.guards.get i).high
  watch : s.watch.settingsFit = true
  store : s.store.fits = true

theorem all_option_iff {α : Type} (o : Option α) (p : α → Bool) : o.all p = true ↔ ∀ a, o = some a → p a = true := by
  cases o <;> simp

theorem storedInForm_iff (s : State) : StoredInForm s ↔
    s.banksFit = true ∧ s.guardsFit = true ∧ s.watch.settingsFit = true ∧ s.store.fits = true := by
  simp only [State.banksFit, State.guardsFit, Bool.and_eq_true, all_option_iff, Table.all_cells_iff, decide_eq_true_iff]
  constructor
  · intro h
    exact ⟨⟨⟨⟨⟨⟨⟨⟨h.active, h.s0⟩, h.s1⟩, h.failsafe⟩, fun i hi => (h.image i hi).1⟩, fun i hi => (h.writing i hi).1⟩,
      h.snapshot⟩, h.ramps⟩, ⟨⟨h.guards, fun i hi => (h.image i hi).2⟩, fun i hi => (h.writing i hi).2⟩, h.watch, h.store⟩
  · rintro ⟨⟨⟨⟨⟨⟨⟨⟨active, s0⟩, s1⟩, failsafe⟩, image⟩, writing⟩, snapshot⟩, ramps⟩, ⟨⟨guards, image'⟩, writing'⟩, watch, store⟩
    exact ⟨active, s0, s1, failsafe, fun i hi => ⟨image i hi, image' i hi⟩, fun i hi => ⟨writing i hi, writing' i hi⟩,
      snapshot, ramps, guards, watch, store⟩

/-- The blocks that hold none of it but for the old entries of the ramps. -/
def storedElsewhere : Touch := { freeBlocks with rings := true, tpt := true, log := true, ramps := true }

/-- An operation on other blocks keeps the form, where it keeps that of the ramps. -/
theorem StoredInForm.of_frame {t : Touch} {s s' : State} (h : StoredInForm s) (k : Frame t s s')
    (ramps : ∀ x r, s'.ramps.get x = some r → r.old.wf = true) (ht : t.le storedElsewhere = true := by decide) :
    StoredInForm s' := by
  have k := k.mono ht
  have settings := k.settings rfl
  simp only [State.settings, Prod.mk.injEq] at settings
  obtain ⟨-, -, -, -, -, threshold, frames, -⟩ := settings
  refine ⟨k.active rfl ▸ h.active, k.s0 rfl ▸ h.s0, k.s1 rfl ▸ h.s1, k.failsafe rfl ▸ h.failsafe, ?_, ?_, ?_, ramps, ?_, ?_,
    k.store rfl ▸ h.store⟩
  · rw [k.store rfl]
    exact h.image
  · rw [k.store rfl]
    exact h.writing
  · rw [k.ce rfl]
    exact h.snapshot
  · rw [k.guards rfl]
    exact h.guards
  · have watch := h.watch
    simpa only [Watch.settingsFit, threshold, frames] using watch

/-- An operation that leaves the ramps too keeps the form. -/
theorem StoredInForm.of_frame_keeping {t : Touch} {s s' : State} (h : StoredInForm s) (k : Frame t s s')
    (hr : t.ramps = false := by rfl) (ht : t.le storedElsewhere = true := by decide) : StoredInForm s' :=
  h.of_frame k (by rw [k.ramps hr]; exact h.ramps) ht

/-! ## Banks and entries (R74, R77) -/

theorem Bank.wf_iff (b : Bank) : b.wf = true ↔ ∀ x, (b.entries.get x).wf = true := Table.all_cells_iff _ _

theorem Bank.default_wf : Bank.default.wf = true := by
  simp [Bank.wf_iff, Bank.default, Entry.default, Entry.wf]

theorem stagingOf_wf {s : State} (h : StoredInForm s) (b : Staging) : (stagingOf s b).wf = true := by
  cases b
  · exact h.s0
  · exact h.s1

theorem bankOf_wf {s : State} (h : StoredInForm s) (b : BankCode) : (bankOf s b).wf = true := by
  cases b
  · exact h.active
  · exact h.s0
  · exact h.s1
  · exact h.failsafe

theorem guardedOver_wf (g : Table 4 Guard) {a f : Bank} (ha : a.wf = true) (hf : f.wf = true) :
    (guardedOver g a f).wf = true := by
  rw [Bank.wf_iff] at ha hf ⊢
  intro x
  simp only [guardedOver, Table.get_tab]
  split
  · exact ha x
  · exact hf x

theorem switchedBank_wf (d : Domain) {p a : Bank} (hp : p.wf = true) (ha : a.wf = true) :
    (switchedBank d p a).wf = true := by
  rw [Bank.wf_iff] at hp ha ⊢
  intro x
  simp only [switchedBank, Table.get_tab]
  split
  · exact hp x
  · exact ha x

theorem snapshotFor_wf {s : State} (h : StoredInForm s) (r : Requester) : (snapshotFor r s).wf = true := by
  cases r
  · exact stagingOf_wf h _
  · exact stagingOf_wf h _
  · exact guardedOver_wf _ h.active h.failsafe

theorem entryArgs?_wf {src gain inv psrc pgain pinv delay ramp mute : Word} {e : Entry}
    (h : entryArgs? src gain inv psrc pgain pinv delay ramp mute = some e) : e.wf = true := by
  unfold entryArgs? at h
  split at h
  · split at h
    · cases h
    · rename_i source _ partner _ _ _ _ _ _ _ _ _ described
      cases h
      cases source <;> cases partner <;> simp_all [Entry.wf]
  · cases h

theorem setStaging_inForm {s : State} (h : StoredInForm s) (b : Staging) {k : Bank} (hk : k.wf = true) :
    StoredInForm (setStaging b k s) := by
  cases b
  · exact { h with s0 := hk }
  · exact { h with s1 := hk }

/-! ## Ramps (R104, R127) -/

/-- The old entries of the ramps are well formed (R74). -/
def RampsFit (s : State) : Prop := ∀ x k, s.ramps.get x = some k → k.old.wf = true

theorem RampsFit.setRamp {s : State} (h : RampsFit s) (x : Dest) {r : Option Ramp} (hr : ∀ k, r = some k → k.old.wf = true) :
    RampsFit (s.setRamp x r) := by
  intro y k hk
  simp only [State.setRamp_fields, Table.get_set] at hk
  split at hk
  · exact hr k hk
  · exact h y k hk

theorem RampsFit.setTpt {s : State} (h : RampsFit s) (t : Table 64 TakePoint) : RampsFit (s.setTpt t) := h

theorem RampsFit.endRamp (x : Dest) (s : State) (h : RampsFit s) : RampsFit (endRamp x s) := by
  unfold Machine.endRamp
  split
  · exact h
  · exact RampsFit.setRamp h x (by simp)

theorem RampsFit.advanceRamp (x : Dest) (s : State) (h : RampsFit s) : RampsFit (advanceRamp x s) := by
  unfold Machine.advanceRamp
  split
  · exact h
  · rename_i r hr
    refine keeps_ite (h.endRamp x s) (RampsFit.setRamp h x ?_)
    rintro k ⟨⟩
    exact h x r hr

theorem RampsFit.endRamps (d : Domain) (s : State) (h : RampsFit s) : RampsFit (endRamps d s) :=
  keeps_endRamps RampsFit.endRamp (fun _ _ h => h) d s h

theorem RampsFit.advanceRamps (d : Domain) (s : State) (h : RampsFit s) : RampsFit (advanceRamps d s) :=
  RampsFit.setTpt (keeps_walk RampsFit.advanceRamp _ s h) _

/-- A switch begins a ramp only from the entry in force (R104). -/
theorem RampsFit.switchDest (running : Bool) (p : Bank) (x : Dest) (s : State) (h : RampsFit s) (ha : s.active.wf = true) :
    RampsFit (switchDest running p x s) := by
  have ended := h.endRamp x s
  unfold Machine.switchDest
  dsimp only
  split
  · refine RampsFit.setRamp ended x ?_
    rintro k ⟨⟩
    exact (Bank.wf_iff _).1 ha x
  · exact ended

theorem switchDest_active (running : Bool) (p : Bank) (x : Dest) (s : State) :
    (switchDest running p x s).active = s.active := (frame_switchDest s running p x).active rfl

theorem RampsFit.switchTo (d : Domain) (running : Bool) (p : Bank) (s : State) (h : RampsFit s) (ha : s.active.wf = true) :
    RampsFit (switchTo d running p s) := by
  have walked := keeps_walk (P := fun s => RampsFit s ∧ s.active.wf = true)
    (fun x s hs => ⟨hs.1.switchDest running p x s hs.2, by rw [switchDest_active]; exact hs.2⟩)
    ((List.finRange 16).map (domainDest d)) s ⟨h, ha⟩
  unfold Machine.switchTo RampsFit
  dsimp only
  cases domainFeed? d <;> exact walked.1

/-! ## The store (R173, R175, R177) -/

theorem Store.goodImage_eq_some {t : Store} {i : Image} (h : t.goodImage = some i) : t.image = some i ∧ i.good = true := by
  unfold Store.goodImage at h
  rwa [Option.filter_eq_some_iff] at h

theorem Store.goodImage_of_good {i : Image} {st : StoreState} {w : Option ImageContents} (h : i.good = true) :
    Store.goodImage ⟨st, some i, w⟩ = some i := by
  simp [Store.goodImage, h]

theorem Store.fits_examined (t : Store) : t.examined.fits = true := by
  unfold Store.examined
  split
  · rename_i i good
    simp [Store.fits, Store.goodImage_of_good (Store.goodImage_eq_some good).2]
  · rename_i bad
    have : Store.goodImage ⟨.invalid, t.image, none⟩ = t.goodImage := rfl
    simp [Store.fits, this, bad]

theorem Store.examined_image (t : Store) : t.examined.image = t.image := by
  unfold Store.examined
  split
  · rename_i good
    exact (Store.goodImage_eq_some good).1.symm
  · rfl

theorem Store.examined_writing (t : Store) : t.examined.writing = none := by
  unfold Store.examined
  split <;> rfl

theorem Store.bank_wf {t : Store} (h : ∀ i, t.image = some i → i.bank.wf = true ∧ i.guardsFit) : t.bank.wf = true := by
  unfold Store.bank
  split
  · rename_i good
    exact (h _ (Store.goodImage_eq_some good).1).1
  · exact Bank.default_wf

theorem Store.guards_fit {t : Store} (h : ∀ i, t.image = some i → i.bank.wf = true ∧ i.guardsFit) (g : Fin 4) :
    (t.guards.get g).low ≤ (t.guards.get g).high := by
  unfold Store.guards
  split
  · rename_i good
    simpa [GuardImage.load] using (h _ (Store.goodImage_eq_some good).1).2 g
  · simp [Guard.start]

theorem ImageContents.sealed_good (c : ImageContents) : c.sealed.good = true := by
  simp [Image.good, ImageContents.sealed]

theorem guardArgs?_fit {b c d e : Word} {g : Guard} (h : guardArgs? b c d e = some g) : g.low ≤ g.high := by
  unfold guardArgs? at h
  split at h
  · split at h
    · rename_i fits
      cases h
      exact fits
    · cases h
  · cases h

theorem settingsFit_held (t : Table 144 WatchedTrack) (a b c : Word) :
    Watch.settingsFit ⟨t, heldThreshold a b, heldFrames c⟩ = true := by
  simp [Watch.settingsFit, heldThreshold, heldFrames, Config.byteMax]

/-! ## What every step keeps -/

theorem stored_report (reason : Reason) (src : FaultSource) (s : State) (h : StoredInForm s) :
    StoredInForm (report reason src s) := h.of_frame_keeping (frame_report s reason src)

/-- A switch takes entries from the snapshot and the patch in force, and begins ramps from the latter (R103, R104). -/
theorem switchDomain_stored (d : Domain) (running : Bool) (s : State) (h : StoredInForm s) :
    StoredInForm (switchDomain d running s) := by
  unfold switchDomain
  split
  · exact h
  · rename_i c flight
    have snapshot := h.snapshot c flight
    have frame := frame_switchTo s d running c.snapshot
    refine keeps_ite h ?_
    exact
      { active := switchedBank_wf d snapshot h.active
        s0 := frame.s0 rfl ▸ h.s0
        s1 := frame.s1 rfl ▸ h.s1
        failsafe := frame.failsafe rfl ▸ h.failsafe
        image := frame.store rfl ▸ h.image
        writing := frame.store rfl ▸ h.writing
        snapshot := by rintro _ ⟨⟩; exact snapshot
        ramps := RampsFit.switchTo d running _ s h.ramps h.active
        guards := frame.guards rfl ▸ h.guards
        watch := frame.watch rfl ▸ h.watch
        store := frame.store rfl ▸ h.store }

theorem stored_keptByEvents : KeptByEvents StoredInForm where
  free k h := h.of_frame_keeping k
  report := stored_report
  notice s h := h.of_frame_keeping (frame_noticeForNewest s)
  ce _ _ e h := { h with snapshot := by simpa [e] using h.snapshot }
  switched d running _ s _ h := switchDomain_stored d running s h
  accept r s _ h := { h with snapshot := by rintro c ⟨⟩; exact snapshotFor_wf h r }
  complete _ e _ _ he h := { h with snapshot := by simp [he] }
  resetRing r s h := h.of_frame_keeping (frame_resetRing s r)
  starveRing r s h := h.of_frame_keeping (frame_starveRing s r)
  startTakePoints d s h := h.of_frame_keeping (frame_startTakePoints s d)
  judgeTakePoints d s h := h.of_frame_keeping (frame_judgeTakePoints s d)
  writeEvent r sets s h := h.of_frame_keeping (frame_writeEvent s r sets)
  emission d s h := keeps_emission (fun k h => h.of_frame_keeping k) stored_report
    (fun i s h => h.of_frame_keeping (frame_recentre s i)) (fun d s h => h.of_frame_keeping (frame_advanceTakes s d))
    (fun d s h => h.of_frame (frame_advanceRamps s d) (RampsFit.advanceRamps d s h.ramps)) d s h
  endRamps d s h := h.of_frame (frame_endRamps s d) (RampsFit.endRamps d s h.ramps)

theorem Store.interrupted_of (t : Store) : t.interrupted = t ∨ t.interrupted = Store.start := by
  unfold Store.interrupted
  split
  · exact Or.inr rfl
  · exact Or.inl rfl
  · exact Or.inl rfl

theorem interrupted_stored (s : State) (h : StoredInForm s) : StoredInForm { s with store := s.store.interrupted } := by
  obtain same | lost := s.store.interrupted_of
  · rw [same]
    exact h
  · rw [lost]
    exact { h with image := by simp [Store.start], writing := by simp [Store.start], store := (by decide : Store.start.fits = true) }

theorem written_stored (s : State) (h : StoredInForm s) : StoredInForm { s with store := s.store.written } := by
  unfold Store.written
  split
  · rename_i c _ writing
    have contents := h.writing c writing
    exact { h with
      image := by rintro _ ⟨⟩; exact contents
      writing := by simp
      store := by simp [Store.fits, Store.goodImage_of_good c.sealed_good] }
  · exact h

theorem storeFailsafe_stored (b : BankCode) (s : State) (h : StoredInForm s) : StoredInForm
    { s with failsafe := bankOf s b, store := ⟨.writing, none, some (imageOf (bankOf s b) s.guards)⟩ } :=
  { h with
    failsafe := bankOf_wf h b
    image := by simp
    writing := by
      rintro _ ⟨⟩
      exact ⟨bankOf_wf h b, fun g => by simpa [imageOf] using h.guards g⟩
    store := by simp [Store.fits] }

theorem startUp_stored (cause : StartCause) (s : State) (h : StoredInForm s) : StoredInForm (startUp cause s) where
  active := Store.bank_wf h.image
  s0 := Bank.default_wf
  s1 := Bank.default_wf
  failsafe := Store.bank_wf h.image
  image := by
    show ∀ i, s.store.examined.image = some i → _
    rw [Store.examined_image]
    exact h.image
  writing := by
    show ∀ i, s.store.examined.writing = some i → _
    simp [Store.examined_writing]
  snapshot := by simp [startUp, State.reset, Engine.start]
  ramps := by simp [startUp, State.reset]
  guards := Store.guards_fit h.image
  watch := (by decide : Watch.start.settingsFit = true)
  store := Store.fits_examined _

/-- What a command or a power event stores is in range too. -/
theorem stored_keptBySteps : KeptBySteps StoredInForm where
  toKeptByEvents := stored_keptByEvents
  settings k hw h :=
    { active := k.active rfl ▸ h.active, s0 := k.s0 rfl ▸ h.s0, s1 := k.s1 rfl ▸ h.s1, failsafe := k.failsafe rfl ▸ h.failsafe
      image := k.store rfl ▸ h.image, writing := k.store rfl ▸ h.writing, snapshot := k.ce rfl ▸ h.snapshot
      ramps := k.ramps rfl ▸ h.ramps, guards := k.guards rfl ▸ h.guards, watch := hw ▸ h.watch, store := k.store rfl ▸ h.store }
  presence a b c _ h := { h with watch := settingsFit_held _ a b c }
  writeEntry b x _ _ _ _ _ _ _ _ _ e s he h := by
    refine setStaging_inForm h b ((Bank.wf_iff _).2 fun y => ?_)
    rw [Table.get_set]
    split
    · exact entryArgs?_wf he
    · exact (Bank.wf_iff _).1 (stagingOf_wf h b) y
  writeMode b _ _ _ h := setStaging_inForm h b (stagingOf_wf h b)
  copyBank b c _ h := setStaging_inForm h b (bankOf_wf h c)
  setGuard i _ _ _ _ g s hg h := { h with
    guards := fun j => by
      rw [Table.get_set]
      split
      · exact guardArgs?_fit hg
      · exact h.guards j }
  storeFailsafe := storeFailsafe_stored
  interrupted := interrupted_stored
  written := written_stored
  faultsRead s h := h.of_frame_keeping (frame_setLog s _)
  faultsCleared _ s h := h.of_frame_keeping (frame_setLog s _)
  masked _ s h := h.of_frame_keeping (frame_setLog s _)
  startUp := startUp_stored

/-- Settles O58: what is stored is in range part by part, and every leaf operation of a step stores only such parts. -/
theorem bankAndSettingInvariant : Obligations.BankAndSettingInvariant := by
  unfold Obligations.BankAndSettingInvariant
  intro s t banks guards watch store next
  have form : StoredInForm s := (storedInForm_iff s).2 ⟨banks, guards, watch, store⟩
  exact (storedInForm_iff t).1 (stored_keptBySteps.step s t form next)

end Machine

end Sys2Proof
end

section
/-! PROOF. Rings keep the sets last written, and a RUNNING record's take stays within reach of its ring (R49, R50, R61, R62). A write event and an emission each break this on the way, and mend it record by record. -/

namespace Sys2Proof

namespace Machine

/-! ## Walks that mend one thing at a time -/

/-- What one step of a walk brings about, and the others do not undo, holds after it. -/
theorem walk_brings {α : Type} {P Q : State → Prop} {f : α → State → State} {b : α} {l : List α}
    (keep : ∀ a ∈ l, ∀ s, P s → P (f a s)) (stay : ∀ a ∈ l, ∀ s, P s → Q s → Q (f a s)) (bring : ∀ s, P s → Q (f b s))
    (hb : b ∈ l) {s : State} (hs : P s) : Q (walk l f s) := by
  induction l generalizing s with
  | nil => cases hb
  | cons a l ih =>
    have keep' : ∀ c ∈ l, ∀ s, P s → P (f c s) := fun c hc => keep c (List.mem_cons_of_mem a hc)
    have stay' : ∀ c ∈ l, ∀ s, P s → Q s → Q (f c s) := fun c hc => stay c (List.mem_cons_of_mem a hc)
    obtain rfl | hb := List.mem_cons.1 hb
    · exact (walk_holds (P := fun s => P s ∧ Q s) l (fun c hc s h => ⟨keep' c hc s h.1, stay' c hc s h.1 h.2⟩) _
        ⟨keep b List.mem_cons_self s hs, bring s hs⟩).2
    · exact ih keep' stay' hb (keep a List.mem_cons_self s hs)

/-! ## The table of take points -/

/-- The lowest place at which p holds, if there is one. -/
theorem Table.head?_places {n : Nat} {α : Type} (t : Table n α) (p : α → Bool) :
    ((t.places p).head? = none ∧ ∀ i, p (t.get i) = false) ∨
      ∃ i, (t.places p).head? = some i ∧ p (t.get i) = true ∧ ∀ j, j < i → p (t.get j) = false := by
  unfold Table.places
  rw [List.head?_filter]
  cases h : (List.finRange n).find? fun i => p (t.get i) with
  | none => exact Or.inl ⟨rfl, fun i => by simpa using List.find?_eq_none.1 h i (List.mem_finRange i)⟩
  | some i =>
    obtain ⟨found, k, hk, rfl, first⟩ := List.find?_eq_some_iff_getElem.1 h
    refine Or.inr ⟨_, rfl, found, fun j hj => ?_⟩
    have lt : j.val < k := by simpa [Fin.lt_def] using hj
    simpa using first j.val lt

/-- An allocation takes the lowest FREE record, and with none FREE changes nothing (R55, R100). -/
theorem allocate_cases (p : RingNo × Domain) (reserved : Bool) (references : Nat) (t : Table 64 TakePoint) :
    ((∀ i, (t.get i).state ≠ .free) ∧ allocate p reserved references t = t) ∨
      ∃ i, (t.get i).state = .free ∧ (∀ j, j < i → (t.get j).state ≠ .free) ∧
        allocate p reserved references t = t.set i (TakePoint.allocated p reserved references) := by
  unfold allocate
  obtain ⟨none, full⟩ | ⟨i, some, free, first⟩ := Table.head?_places t fun tp => tp.state == .free
  · exact Or.inl ⟨fun i => by simpa using full i, by rw [none]⟩
  · exact Or.inr ⟨i, by simpa using free, fun j hj => by simpa using first j hj, by rw [some]⟩

/-! ## The form -/

/-- A take on a ring with this written count is within reach of it (R50, R61, R62). -/
def TakeReach (written take : Nat) : Prop := 96 ≤ written ∧ take ≤ written ∧ written - take < 2048

/-- A record, if it is RUNNING, is within reach of its ring. -/
def RecordReach (s : State) (i : RecordNo) : Prop :=
  (s.tpt.get i).state = .running → TakeReach (s.rings.get (s.tpt.get i).ring).written (s.tpt.get i).take

theorem takesFit_iff (s : State) : s.takesFit = true ↔ ∀ i, RecordReach s i := by
  unfold State.takesFit
  rw [Table.all_cells_iff]
  refine forall_congr' fun i => ?_
  rw [Bool.or_eq_true, decide_eq_true_iff, bne_iff_ne, ← imp_iff_not_or]
  rfl

/-- A ring stores the newest of the sets written, as many as fit (R49). -/
theorem Ring.wf_iff (g : Ring) : g.wf = true ↔ g.store.length = min g.written 8192 := beq_iff_eq

theorem ringsFit_iff (s : State) : s.ringsFit = true ↔ ∀ r, (s.rings.get r).wf = true := Table.all_cells_iff _ _

/-- The rings and the takes are in form. -/
def TakesInForm (s : State) : Prop := (∀ r, (s.rings.get r).wf = true) ∧ ∀ i, RecordReach s i

theorem takesInForm_iff (s : State) : TakesInForm s ↔ s.ringsFit = true ∧ s.takesFit = true := by
  rw [ringsFit_iff, takesFit_iff]
  rfl

/-! ## Operations that bring no take forward -/

/-- A record that is RUNNING after an operation was so before, at the same take of the same ring. -/
def TakePoint.RunsFrom (a b : TakePoint) : Prop :=
  b.state = .running → a.state = .running ∧ b.ring = a.ring ∧ b.take = a.take

/-- Every record of u that is RUNNING was so in t, at the same take. -/
def RunsFrom (t u : Table 64 TakePoint) : Prop := ∀ i, (t.get i).RunsFrom (u.get i)

theorem RunsFrom.refl (t : Table 64 TakePoint) : RunsFrom t t := fun _ h => ⟨h, rfl, rfl⟩

theorem RunsFrom.trans {t u v : Table 64 TakePoint} (a : RunsFrom t u) (b : RunsFrom u v) : RunsFrom t v := fun i h => by
  obtain ⟨h1, r1, t1⟩ := b i h
  obtain ⟨h2, r2, t2⟩ := a i h1
  exact ⟨h2, r1.trans r2, t1.trans t2⟩

theorem RunsFrom.map (t : Table 64 TakePoint) {f : TakePoint → TakePoint} (h : ∀ tp : TakePoint, tp.RunsFrom (f tp)) :
    RunsFrom t (t.map f) := fun i => by
  rw [Table.get_map]
  exact h _

theorem RunsFrom.foldl {α : Type} {f : Table 64 TakePoint → α → Table 64 TakePoint} (h : ∀ t a, RunsFrom t (f t a))
    (l : List α) (t : Table 64 TakePoint) : RunsFrom t (l.foldl f t) := by
  induction l generalizing t with
  | nil => exact RunsFrom.refl t
  | cons a l ih => exact (h t a).trans (ih _)

theorem RunsFrom.walk {α : Type} {f : α → State → State} (h : ∀ a s, RunsFrom s.tpt (f a s).tpt) (l : List α) (s : State) :
    RunsFrom s.tpt (walk l f s).tpt :=
  keeps_walk (P := fun u => RunsFrom s.tpt u.tpt) (fun a u hu => hu.trans (h a u)) l s (RunsFrom.refl _)

theorem runsFrom_dropReference (t : Table 64 TakePoint) (p : RingNo × Domain) : RunsFrom t (dropReference p t) :=
  RunsFrom.map t fun tp h => by
    split at h <;> simp_all

theorem runsFrom_addReference (t : Table 64 TakePoint) (p : RingNo × Domain) : RunsFrom t (addReference p t) :=
  RunsFrom.map t fun tp h => by
    split at h <;> simp_all

theorem TakePoint.runsFrom_freedIfUnused (tp : TakePoint) : tp.RunsFrom tp.freedIfUnused := fun h => by
  unfold TakePoint.freedIfUnused at *
  split at h
  · cases h
  · rename_i used
    simp [used, h]

theorem runsFrom_freeUnused (d : Domain) (t : Table 64 TakePoint) : RunsFrom t (freeUnused d t) :=
  RunsFrom.map t fun tp => by
    split
    · exact tp.runsFrom_freedIfUnused
    · exact fun h => ⟨h, rfl, rfl⟩

theorem runsFrom_unreserve (t : Table 64 TakePoint) : RunsFrom t (unreserve t) :=
  RunsFrom.map t fun tp => TakePoint.runsFrom_freedIfUnused { tp with reserved := false }

theorem TakePoint.runsFrom_movedOn (tp : TakePoint) (r : RingNo) {st : TpState} (hst : st ≠ .running) :
    tp.RunsFrom (tp.movedOn r st) := fun h => by
  unfold TakePoint.movedOn at *
  split at h
  · exact absurd h hst
  · rename_i other
    rw [if_neg other]
    exact ⟨h, rfl, rfl⟩

theorem runsFrom_allocate (p : RingNo × Domain) (reserved : Bool) (references : Nat) (t : Table 64 TakePoint) :
    RunsFrom t (allocate p reserved references t) := by
  obtain ⟨_, e⟩ | ⟨i, _, _, e⟩ := allocate_cases p reserved references t
  · rw [e]
    exact RunsFrom.refl t
  · intro j h
    rw [e, Table.get_set] at *
    split at h
    · cases h
    · rename_i other
      simp [other, h]

theorem runsFrom_reserveFor (p : Bank) (t : Table 64 TakePoint) : RunsFrom t (reserveFor p t) := by
  refine (RunsFrom.foldl (fun t q => ?_) (bankPairs p) t).trans (RunsFrom.map _ fun tp h => ?_)
  · unfold allocateReserved
    split
    · exact RunsFrom.refl t
    · exact runsFrom_allocate q true 0 t
  · unfold TakePoint.reservedFor at *
    split at h <;> simp_all

theorem runsFrom_endRamp (x : Dest) (s : State) : RunsFrom s.tpt (endRamp x s).tpt := by
  unfold endRamp
  split
  · exact RunsFrom.refl _
  · exact RunsFrom.foldl runsFrom_dropReference _ s.tpt

theorem runsFrom_advanceRamp (x : Dest) (s : State) : RunsFrom s.tpt (advanceRamp x s).tpt := by
  unfold advanceRamp
  split
  · exact RunsFrom.refl _
  · split
    · exact runsFrom_endRamp x s
    · exact RunsFrom.refl _

theorem runsFrom_endRamps (d : Domain) (s : State) : RunsFrom s.tpt (endRamps d s).tpt :=
  (RunsFrom.walk runsFrom_endRamp _ s).trans (runsFrom_freeUnused d _)

theorem runsFrom_advanceRamps (d : Domain) (s : State) : RunsFrom s.tpt (advanceRamps d s).tpt :=
  (RunsFrom.walk runsFrom_advanceRamp _ s).trans (runsFrom_freeUnused d _)

theorem runsFrom_switchDest (running : Bool) (p : Bank) (x : Dest) (s : State) :
    RunsFrom s.tpt (switchDest running p x s).tpt := by
  unfold switchDest
  dsimp only
  refine ((runsFrom_endRamp x s).trans ?_).trans (RunsFrom.foldl runsFrom_addReference _ _)
  split
  · exact RunsFrom.refl _
  · exact RunsFrom.foldl runsFrom_dropReference _ _

theorem runsFrom_switchTo (d : Domain) (running : Bool) (p : Bank) (s : State) :
    RunsFrom s.tpt (switchTo d running p s).tpt := by
  have walked := RunsFrom.walk (runsFrom_switchDest running p) ((List.finRange 16).map (domainDest d)) s
  unfold switchTo
  dsimp only
  cases domainFeed? d <;> exact walked.trans (runsFrom_freeUnused d _)

theorem runsFrom_switchDomain (d : Domain) (running : Bool) (s : State) :
    RunsFrom s.tpt (switchDomain d running s).tpt := by
  unfold switchDomain
  split
  · exact RunsFrom.refl _
  · split
    · exact RunsFrom.refl _
    · exact runsFrom_switchTo d running _ s

/-- Where the rings stay and no take is brought forward, the takes stay in form. -/
theorem TakesInForm.of_runsFrom {s t : State} (h : TakesInForm s) (rings : t.rings = s.rings) (takes : RunsFrom s.tpt t.tpt) :
    TakesInForm t := by
  refine ⟨rings ▸ h.1, fun i running => ?_⟩
  obtain ⟨before, ring, take⟩ := takes i running
  rw [rings, ring, take]
  exact h.2 i before

theorem TakesInForm.of_eq {s t : State} (h : TakesInForm s) (rings : t.rings = s.rings) (tpt : t.tpt = s.tpt) :
    TakesInForm t := h.of_runsFrom rings (tpt ▸ RunsFrom.refl _)

/-! ## The reset of a ring, and the judgments of a boundary -/

theorem resetRing_takes (r : RingNo) (s : State) (h : TakesInForm s) : TakesInForm (resetRing r s) := by
  constructor
  · intro k
    simp only [resetRing, State.setTracks_fields, State.setTpt_fields, State.setRing_fields, Table.get_set]
    split
    · rfl
    · exact h.1 k
  · intro i running
    simp only [resetRing, State.setTracks_fields, State.setTpt_fields, State.setRing_fields, Table.get_map] at running ⊢
    obtain ⟨before, ring, take⟩ := (s.tpt.get i).runsFrom_movedOn r (by decide) running
    have other : r ≠ (s.tpt.get i).ring := by
      rintro rfl
      simp [TakePoint.movedOn, before] at running
    rw [ring, take, Table.get_set_other _ _ _ _ other]
    exact h.2 i before

theorem starveRing_takes (r : RingNo) (s : State) (h : TakesInForm s) : TakesInForm (starveRing r s) :=
  h.of_runsFrom rfl (RunsFrom.map _ fun tp => tp.runsFrom_movedOn r (by decide))

theorem startTakePoints_takes (d : Domain) (s : State) (h : TakesInForm s) : TakesInForm (startTakePoints d s) :=
  h.of_runsFrom rfl (RunsFrom.map _ fun tp running => by
    split at running
    · cases running
    · rename_i other
      rw [if_neg other]
      exact ⟨running, rfl, rfl⟩)

theorem judgedAtBoundary_reach (s : State) (tp : TakePoint)
    (h : tp.state = .running → TakeReach (s.rings.get tp.ring).written tp.take) :
    (judgedAtBoundary s tp).state = .running →
      TakeReach (s.rings.get (judgedAtBoundary s tp).ring).written (judgedAtBoundary s tp).take := by
  unfold judgedAtBoundary occupancy TakeReach Config.windowHigh Config.windowLow Config.centre at *
  cases state : tp.state with
  | running =>
    have reach := h state
    dsimp only
    split
    · intro _
      dsimp only
      omega
    · split
      · intro _
        dsimp only
        omega
      · exact fun _ => reach
  | filling =>
    dsimp only
    split
    · intro _
      dsimp only
      omega
    · exact h
  | free => exact h
  | starved => exact h

theorem judgeTakePoints_takes (d : Domain) (s : State) (h : TakesInForm s) : TakesInForm (judgeTakePoints d s) := by
  refine ⟨h.1, fun i => ?_⟩
  have judged := judgedAtBoundary_reach s (s.tpt.get i) (h.2 i)
  simp only [RecordReach, judgeTakePoints, State.setTpt_fields, Table.get_map]
  split
  · exact judged
  · exact h.2 i

/-! ## Re-centres (R61) -/

theorem recentre_rings (i : RecordNo) (s : State) : (recentre i s).rings = s.rings := (frame_recentre s i).rings rfl

theorem recentre_tpt (i : RecordNo) (s : State) :
    (recentre i s).tpt = s.tpt.set i ((s.tpt.get i).recentred (s.rings.get (s.tpt.get i).ring).written) := by
  simp [recentre]

/-- A re-centred record is within reach of a ring that holds 96 sets; the others stay where they are. -/
theorem recentre_reach (i j : RecordNo) (s : State) (filled : (s.tpt.get i).state = .running →
    96 ≤ (s.rings.get (s.tpt.get i).ring).written) (h : i = j ∨ RecordReach s j) : RecordReach (recentre i s) j := by
  unfold RecordReach
  rw [recentre_tpt, recentre_rings, Table.get_set]
  split
  · rename_i same
    subst same
    intro running
    have := filled running
    simp only [TakePoint.recentred, TakeReach, Config.centre]
    omega
  · rename_i other
    exact h.resolve_left other

/-- Every RUNNING record's ring holds 96 sets, and its take is not ahead of it. -/
def TakesBehind (s : State) : Prop := ∀ i, (s.tpt.get i).state = .running →
  96 ≤ (s.rings.get (s.tpt.get i).ring).written ∧ (s.tpt.get i).take ≤ (s.rings.get (s.tpt.get i).ring).written

theorem RecordReach.behind {s : State} (h : ∀ i, RecordReach s i) : TakesBehind s :=
  fun i running => ⟨(h i running).1, (h i running).2.1⟩

theorem recentre_behind (i : RecordNo) (s : State) (h : TakesBehind s) : TakesBehind (recentre i s) := by
  intro j
  rw [recentre_tpt, recentre_rings, Table.get_set]
  split
  · intro running
    have := h i running
    simp only [TakePoint.recentred, Config.centre]
    omega
  · exact h j

/-! ## A write event (R49, R62) -/

theorem Ring.push_wf {g : Ring} (h : g.wf = true) (x : SampleSet) : (g.push x).wf = true := by
  rw [Ring.wf_iff] at h ⊢
  simp only [Ring.push, Config.ringDepth, List.length_take, List.length_cons]
  omega

theorem Ring.pushes_wf {g : Ring} (h : g.wf = true) (sets : List SampleSet) : (sets.foldl Ring.push g).wf = true := by
  induction sets generalizing g with
  | nil => exact h
  | cons x sets ih => exact ih (Ring.push_wf h x)

theorem Ring.written_pushes (g : Ring) (sets : List SampleSet) :
    (sets.foldl Ring.push g).written = g.written + sets.length := by
  induction sets generalizing g with
  | nil => rfl
  | cons x sets ih =>
    rw [List.foldl_cons, ih, List.length_cons]
    simp only [Ring.push]
    omega

theorem overrunRecord_eq (r : RingNo) (i : RecordNo) (s : State) :
    overrunRecord r i s = if (s.tpt.get i).state = .running ∧ (s.tpt.get i).ring = r ∧
      2048 ≤ occupancy s (s.tpt.get i) then recentre i s else s := rfl

/-- While a write's overruns are dealt with: takes are behind, and within reach on every other ring. -/
def TakesBehindBut (r : RingNo) (s : State) : Prop :=
  TakesBehind s ∧ ∀ i, (s.tpt.get i).ring ≠ r → RecordReach s i

theorem overrunRecord_behind (r : RingNo) (i : RecordNo) (s : State) (h : TakesBehindBut r s) :
    TakesBehindBut r (overrunRecord r i s) := by
  rw [overrunRecord_eq]
  refine keeps_ite ⟨recentre_behind i s h.1, fun j off => ?_⟩ h
  refine recentre_reach i j s (fun running => (h.1 i running).1) (or_iff_not_imp_left.2 fun other => h.2 j ?_)
  rwa [recentre_tpt, Table.get_set_other _ _ _ _ other] at off

theorem overrunRecord_stays (r : RingNo) (i j : RecordNo) (s : State) (h : TakesBehindBut r s) (hj : RecordReach s j) :
    RecordReach (overrunRecord r i s) j := by
  rw [overrunRecord_eq]
  exact keeps_ite (P := fun s => RecordReach s j)
    (recentre_reach i j s (fun running => (h.1 i running).1) (Or.inr hj)) hj

theorem overrunRecord_reach (r : RingNo) (i : RecordNo) (s : State) (h : TakesBehindBut r s) :
    RecordReach (overrunRecord r i s) i := by
  rw [overrunRecord_eq]
  split
  · exact recentre_reach i i s (fun running => (h.1 i running).1) (Or.inl rfl)
  · rename_i fits
    by_cases on : (s.tpt.get i).ring = r
    · intro running
      have := h.1 i running
      have short : ¬2048 ≤ occupancy s (s.tpt.get i) := fun long => fits ⟨running, on, long⟩
      unfold occupancy at short
      unfold TakeReach
      omega
    · exact h.2 i on

theorem writeEvent_rings (r : RingNo) (sets : List SampleSet) (s : State) :
    (writeEvent r sets s).rings = s.rings.set r (sets.foldl Ring.push (s.rings.get r)) :=
  (Frame.walk (fun i s => frame_overrunRecord s r i) _ _).rings rfl

theorem writeEvent_takes (r : RingNo) (sets : List SampleSet) (s : State) (h : TakesInForm s) :
    TakesInForm (writeEvent r sets s) := by
  constructor
  · intro k
    rw [writeEvent_rings, Table.get_set]
    split
    · exact Ring.pushes_wf (h.1 r) sets
    · exact h.1 k
  · intro i
    refine walk_brings (P := TakesBehindBut r) (fun k _ s => overrunRecord_behind r k s)
      (fun k _ s => overrunRecord_stays r k i s) (fun s => overrunRecord_reach r i s) (List.mem_finRange i) ⟨?_, ?_⟩
    · intro j running
      have reach := h.2 j running
      simp only [State.setRing_fields, Table.get_set]
      split
      · rename_i on
        rw [← on] at reach
        rw [Ring.written_pushes]
        exact ⟨by have := reach.1; omega, by have := reach.2.1; omega⟩
      · exact ⟨reach.1, reach.2.1⟩
    · intro j off running
      simp only [State.setRing_fields] at off running ⊢
      rw [Table.get_set_other _ _ _ _ (Ne.symm off)]
      exact h.2 j running

/-! ## An emission (R58, R59) -/

theorem underrunRecord_takes (d : Domain) (i : RecordNo) (s : State) (h : TakesInForm s) :
    TakesInForm (underrunRecord d i s) :=
  keeps_ite ⟨by rw [recentre_rings]; exact h.1,
    fun j => recentre_reach i j s (fun running => (h.2 i running).1) (Or.inr (h.2 j))⟩ h

/-- A RUNNING record of domain d has a set to read. -/
def HasSet (d : Domain) (s : State) (i : RecordNo) : Prop := (s.tpt.get i).state = .running → (s.tpt.get i).domain = d →
  (s.tpt.get i).take < (s.rings.get (s.tpt.get i).ring).written

theorem recentre_hasSet (d : Domain) (i j : RecordNo) (s : State) (h : TakesInForm s) (hj : i = j ∨ HasSet d s j) :
    HasSet d (recentre i s) j := by
  unfold HasSet
  rw [recentre_tpt, recentre_rings, Table.get_set]
  split
  · intro running _
    have := (h.2 i running).1
    simp only [TakePoint.recentred, Config.centre]
    omega
  · rename_i other
    exact hj.resolve_left other

theorem underrunRecord_hasSet (d : Domain) (i : RecordNo) (s : State) (h : TakesInForm s) :
    HasSet d (underrunRecord d i s) i := by
  unfold underrunRecord
  dsimp only
  split
  · exact recentre_hasSet d i i s h (Or.inl rfl)
  · rename_i read
    intro running domain
    have some : ¬occupancy s (s.tpt.get i) = 0 := fun empty => read ⟨running, domain, empty⟩
    unfold occupancy at some
    omega

theorem underruns_takes (d : Domain) (s : State) (h : TakesInForm s) : TakesInForm (underruns d s) :=
  keeps_walk (underrunRecord_takes d) _ s h

theorem underruns_hasSet (d : Domain) (s : State) (h : TakesInForm s) (i : RecordNo) : HasSet d (underruns d s) i :=
  walk_brings (Q := fun s => HasSet d s i) (fun k _ => underrunRecord_takes d k)
    (fun k _ s hs has => keeps_ite (P := fun s => HasSet d s i) (recentre_hasSet d k i s hs (Or.inr has)) has)
    (underrunRecord_hasSet d i) (List.mem_finRange i) h

theorem advanceTakes_takes (d : Domain) (s : State) (h : TakesInForm s) (has : ∀ i, HasSet d s i) :
    TakesInForm (advanceTakes d s) := by
  refine ⟨h.1, fun i => ?_⟩
  simp only [RecordReach, advanceTakes, State.setTpt_fields, Table.get_map]
  split
  · rename_i moves
    intro running
    have reach := h.2 i running
    have set := has i moves.1 moves.2
    unfold TakeReach at *
    dsimp only
    omega
  · exact h.2 i

/-- What an emission does between the underruns and the advance of the takes touches neither rings nor records. -/
theorem frame_emissionReads (d : Domain) (v : Dest → Int) (s : State) :
    Frame { cm := true, log := true, mgmt := true, clips := true } s
      (markClips d (compareChecked d v (chooseChecked d s))) :=
  (frame_chooseChecked s d).mono.trans ((frame_compareChecked _ d v).mono.trans (frame_markClips _ d).mono)

theorem emission_takes (d : Domain) (s : State) (h : TakesInForm s) : TakesInForm (emission d s) := by
  unfold emission
  dsimp only
  generalize values : emittedValues _ d = v
  have reads := frame_emissionReads d (fun x => v.get ⟨x.val % 16, Nat.mod_lt _ (by decide)⟩) (underruns d s)
  generalize markClips d _ = read at reads ⊢
  have form : TakesInForm read := (underruns_takes d s h).of_eq (reads.rings rfl) (reads.tpt rfl)
  have has : ∀ i, HasSet d read i := fun i => by
    unfold HasSet
    rw [reads.rings rfl, reads.tpt rfl]
    exact underruns_hasSet d s h i
  have advanced := advanceTakes_takes d read form has
  have ramps := advanced.of_runsFrom ((frame_advanceRamps _ d).rings rfl) (runsFrom_advanceRamps d _)
  exact ramps.of_eq ((frame_emitTo _ d _).rings rfl) ((frame_emitTo _ d _).tpt rfl)

/-! ## What every step keeps -/

theorem takes_keptByEvents : KeptByEvents TakesInForm where
  free k h := h.of_eq (k.rings rfl) (k.tpt rfl)
  report reason src s h := h.of_eq ((frame_report s reason src).rings rfl) ((frame_report s reason src).tpt rfl)
  notice s h := h.of_eq ((frame_noticeForNewest s).rings rfl) ((frame_noticeForNewest s).tpt rfl)
  ce _ _ _ h := h
  switched d running _ s _ h := h.of_runsFrom ((frame_switchDomain s d running).rings rfl) (runsFrom_switchDomain d running s)
  accept r s _ h := h.of_runsFrom rfl (runsFrom_reserveFor (snapshotFor r s) s.tpt)
  complete _ _ s _ _ h := h.of_runsFrom rfl (runsFrom_unreserve s.tpt)
  resetRing := resetRing_takes
  starveRing := starveRing_takes
  startTakePoints := startTakePoints_takes
  judgeTakePoints := judgeTakePoints_takes
  writeEvent := writeEvent_takes
  emission := emission_takes
  endRamps d s h := h.of_runsFrom ((frame_endRamps s d).rings rfl) (runsFrom_endRamps d s)

/-- Start-up loads records that are FILLING, on empty rings (R52, R178). -/
theorem startUp_takes (cause : StartCause) (s : State) : TakesInForm (startUp cause s) := by
  have loads : RunsFrom (Table.fill 64 TakePoint.start) (loadedTable s.store.bank) :=
    RunsFrom.foldl (fun t p => by
      unfold loadPair
      split
      · exact runsFrom_addReference t p
      · exact runsFrom_allocate p false 1 t) _ _
  refine ⟨fun r => ?_, fun i running => ?_⟩
  · simp [startUp, State.reset, Ring.wf, Ring.empty]
  · have started := (loads i running).1
    simp [TakePoint.start] at started

theorem setStaging_takes (b : Staging) (k : Bank) (s : State) (h : TakesInForm s) : TakesInForm (setStaging b k s) := by
  cases b <;> exact h

theorem takes_keptBySteps : KeptBySteps TakesInForm where
  toKeptByEvents := takes_keptByEvents
  settings k _ h := h.of_eq (k.rings rfl) (k.tpt rfl)
  presence _ _ _ _ h := h
  writeEntry b _ _ _ _ _ _ _ _ _ _ _ s _ h := setStaging_takes b _ s h
  writeMode b _ _ s h := setStaging_takes b _ s h
  copyBank b _ s h := setStaging_takes b _ s h
  setGuard _ _ _ _ _ _ _ _ h := h
  storeFailsafe _ _ h := h
  interrupted _ h := h
  written _ h := h
  faultsRead _ h := h
  faultsCleared _ _ h := h
  masked _ _ h := h
  startUp cause s _ := startUp_takes cause s

/-- Settles O56: rings and takes stay in form through every leaf operation; a write event mends the takes it leaves behind, an emission re-centres before it advances. -/
theorem ringAndTakeInvariant : Obligations.RingAndTakeInvariant := by
  unfold Obligations.RingAndTakeInvariant
  intro s t rings takes next
  exact (takesInForm_iff t).1 (takes_keptBySteps.step s t ((takesInForm_iff s).2 ⟨rings, takes⟩) next)

end Machine

end Sys2Proof
end

section
/-! PROOF. The Take Point Table (R54, R56, R106): one record to a pair, each of them referenced or reserved. A switch, the end of ramps and a start-up leave records without references on the way, and free them. -/

namespace Sys2Proof

namespace Machine

/-! ## The form -/

/-- No two records that are not FREE hold the same pair (R54). -/
def PairsDistinct (t : Table 64 TakePoint) : Prop := ∀ i j, i ≠ j → (t.get i).state ≠ .free → (t.get j).state ≠ .free →
  ((t.get i).ring, (t.get i).domain) ≠ ((t.get j).ring, (t.get j).domain)

theorem pairsDistinct_iff (t : Table 64 TakePoint) : pairsDistinct t = true ↔ PairsDistinct t := by
  unfold pairsDistinct heldPairs PairsDistinct
  rw [decide_eq_true_iff, List.Nodup, List.pairwise_map, List.pairwise_filter, List.pairwise_iff_getElem]
  simp only [bne_iff_ne]
  constructor
  · intro h i j ne hi hj
    have hi' : i.val < t.cells.length := t.size.symm ▸ i.isLt
    have hj' : j.val < t.cells.length := t.size.symm ▸ j.isLt
    obtain lt | gt := Nat.lt_or_gt_of_ne (Fin.val_ne_of_ne ne)
    · exact h i.val j.val hi' hj' lt hi hj
    · exact (h j.val i.val hj' hi' gt hj hi).symm
  · intro h i j hi hj lt
    exact h ⟨i, t.size ▸ hi⟩ ⟨j, t.size ▸ hj⟩ (by simp [Fin.ext_iff]; omega)

/-- A record is FREE, or something uses it (R56, R106). -/
def TakePoint.Used (tp : TakePoint) : Prop := tp.state = .free ∨ 1 ≤ tp.references ∨ tp.reserved = true

/-- The Take Point Table is in form. -/
structure RecordsInForm (s : State) : Prop where
  distinct : PairsDistinct s.tpt
  used : ∀ i, (s.tpt.get i).Used
  reserved : ∀ i, (s.tpt.get i).reserved = true → s.ce.inFlight.isSome = true

theorem recordsInForm_iff (s : State) : RecordsInForm s ↔ pairsDistinct s.tpt = true ∧ s.recordsUsed = true := by
  unfold State.recordsUsed
  rw [pairsDistinct_iff, Table.all_cells_iff]
  simp only [Bool.and_eq_true, Bool.or_eq_true, Bool.not_eq_true', beq_iff_eq, decide_eq_true_iff, or_assoc]
  constructor
  · intro h
    exact ⟨h.distinct, fun i => ⟨h.used i, by
      rw [← Bool.not_eq_true, ← imp_iff_not_or]
      exact h.reserved i⟩⟩
  · rintro ⟨distinct, h⟩
    exact ⟨distinct, fun i => (h i).1, fun i reserved => (h i).2.resolve_left (by simp [reserved])⟩

/-! ## Operations that leave what uses a record -/

/-- A record after an operation is FREE exactly if it was, on the same ring and domain, and with the same references and mark. -/
structure TakePoint.SameUse (a b : TakePoint) : Prop where
  free : b.state = .free ↔ a.state = .free
  ring : b.ring = a.ring
  domain : b.domain = a.domain
  references : b.references = a.references
  reserved : b.reserved = a.reserved

theorem TakePoint.SameUse.refl (a : TakePoint) : a.SameUse a := ⟨Iff.rfl, rfl, rfl, rfl, rfl⟩

theorem TakePoint.SameUse.trans {a b c : TakePoint} (h : a.SameUse b) (k : b.SameUse c) : a.SameUse c :=
  ⟨k.free.trans h.free, k.ring.trans h.ring, k.domain.trans h.domain, k.references.trans h.references,
    k.reserved.trans h.reserved⟩

/-- Every record of u has the use it has in t. -/
def SameUses (t u : Table 64 TakePoint) : Prop := ∀ i, (t.get i).SameUse (u.get i)

theorem SameUses.refl (t : Table 64 TakePoint) : SameUses t t := fun _ => TakePoint.SameUse.refl _

theorem SameUses.trans {t u v : Table 64 TakePoint} (h : SameUses t u) (k : SameUses u v) : SameUses t v :=
  fun i => (h i).trans (k i)

theorem SameUses.map (t : Table 64 TakePoint) {f : TakePoint → TakePoint} (h : ∀ tp : TakePoint, tp.SameUse (f tp)) :
    SameUses t (t.map f) := fun i => by
  rw [Table.get_map]
  exact h _

/-- Every record of u that is not FREE was so in t, with the same pair. -/
def PairsFrom (t u : Table 64 TakePoint) : Prop := ∀ i, (u.get i).state ≠ .free →
  (t.get i).state ≠ .free ∧ (u.get i).ring = (t.get i).ring ∧ (u.get i).domain = (t.get i).domain

theorem PairsDistinct.of_pairsFrom {t u : Table 64 TakePoint} (h : PairsDistinct t) (k : PairsFrom t u) : PairsDistinct u := by
  intro i j ne hi hj
  obtain ⟨hi, ri, di⟩ := k i hi
  obtain ⟨hj, rj, dj⟩ := k j hj
  rw [ri, di, rj, dj]
  exact h i j ne hi hj

theorem SameUses.pairsFrom {t u : Table 64 TakePoint} (h : SameUses t u) : PairsFrom t u :=
  fun i hi => ⟨fun free => hi ((h i).free.2 free), (h i).ring, (h i).domain⟩

theorem RecordsInForm.of_sameUses {s t : State} (h : RecordsInForm s) (k : SameUses s.tpt t.tpt)
    (ce : t.ce.inFlight = s.ce.inFlight) : RecordsInForm t where
  distinct := h.distinct.of_pairsFrom k.pairsFrom
  used i := by
    unfold TakePoint.Used
    rw [(k i).free, (k i).references, (k i).reserved]
    exact h.used i
  reserved i := by
    rw [(k i).reserved, ce]
    exact h.reserved i

theorem RecordsInForm.of_eq {s t : State} (h : RecordsInForm s) (tpt : t.tpt = s.tpt) (ce : t.ce = s.ce) : RecordsInForm t :=
  h.of_sameUses (tpt ▸ SameUses.refl _) (by rw [ce])

theorem TakePoint.sameUse_movedOn (tp : TakePoint) (r : RingNo) {st : TpState} (hst : st ≠ .free) :
    tp.SameUse (tp.movedOn r st) := by
  unfold TakePoint.movedOn
  split
  · rename_i moves
    exact ⟨by simp [hst, moves.2], rfl, rfl, rfl, rfl⟩
  · exact TakePoint.SameUse.refl tp

theorem sameUses_recentre (i : RecordNo) (s : State) : SameUses s.tpt (recentre i s).tpt := fun j => by
  rw [recentre_tpt, Table.get_set]
  split
  · rename_i same
    subst same
    exact ⟨Iff.rfl, rfl, rfl, rfl, rfl⟩
  · exact TakePoint.SameUse.refl _

theorem TakePoint.sameUse_judged (s : State) (tp : TakePoint) : tp.SameUse (judgedAtBoundary s tp) := by
  unfold judgedAtBoundary
  cases state : tp.state <;> dsimp only
  case running => split_ifs <;> exact ⟨by simp [state], rfl, rfl, rfl, rfl⟩
  case filling => split_ifs <;> exact ⟨by simp [state], rfl, rfl, rfl, rfl⟩
  all_goals exact TakePoint.SameUse.refl tp

theorem TakePoint.sameUse_ite {c : Prop} [Decidable c] {tp tp' : TakePoint} (h : c → tp.SameUse tp') :
    tp.SameUse (if c then tp' else tp) := by
  split
  · exact h ‹_›
  · exact TakePoint.SameUse.refl tp

theorem sameUses_advanceTakes (d : Domain) (s : State) : SameUses s.tpt (advanceTakes d s).tpt :=
  SameUses.map _ fun _ => TakePoint.sameUse_ite fun _ => ⟨Iff.rfl, rfl, rfl, rfl, rfl⟩

theorem sameUses_startTakePoints (d : Domain) (s : State) : SameUses s.tpt (startTakePoints d s).tpt :=
  SameUses.map _ fun _ => TakePoint.sameUse_ite fun runs => ⟨by simp [runs.2], rfl, rfl, rfl, rfl⟩

theorem sameUses_judgeTakePoints (d : Domain) (s : State) : SameUses s.tpt (judgeTakePoints d s).tpt :=
  SameUses.map _ fun tp => TakePoint.sameUse_ite fun _ => tp.sameUse_judged s

/-! ## Operations that move references within a domain -/

/-- From t to u nothing but references changes, and those only of records of domain d. -/
def MovesReferences (d : Domain) (t u : Table 64 TakePoint) : Prop := ∀ i,
  (u.get i).state = (t.get i).state ∧ (u.get i).ring = (t.get i).ring ∧ (u.get i).domain = (t.get i).domain ∧
    (u.get i).reserved = (t.get i).reserved ∧ ((t.get i).domain ≠ d → (u.get i).references = (t.get i).references)

theorem MovesReferences.refl (d : Domain) (t : Table 64 TakePoint) : MovesReferences d t t :=
  fun _ => ⟨rfl, rfl, rfl, rfl, fun _ => rfl⟩

theorem MovesReferences.trans {d : Domain} {t u v : Table 64 TakePoint} (h : MovesReferences d t u)
    (k : MovesReferences d u v) : MovesReferences d t v := fun i => by
  obtain ⟨s1, r1, d1, m1, n1⟩ := h i
  obtain ⟨s2, r2, d2, m2, n2⟩ := k i
  exact ⟨s2.trans s1, r2.trans r1, d2.trans d1, m2.trans m1, fun off => (n2 (d1.symm ▸ off)).trans (n1 off)⟩

theorem MovesReferences.foldl {d : Domain} {f : Table 64 TakePoint → RingNo × Domain → Table 64 TakePoint}
    {l : List (RingNo × Domain)} (h : ∀ p ∈ l, ∀ t, MovesReferences d t (f t p)) (t : Table 64 TakePoint) :
    MovesReferences d t (l.foldl f t) := by
  induction l generalizing t with
  | nil => exact MovesReferences.refl d t
  | cons p l ih =>
    exact (h p List.mem_cons_self t).trans (ih (fun q hq => h q (List.mem_cons_of_mem p hq)) (f t p))

theorem MovesReferences.map_holds {d : Domain} {p : RingNo × Domain} (hp : p.2 = d) (t : Table 64 TakePoint)
    (f : Nat → Nat) : MovesReferences d t
      (t.map fun tp => if tp.holds p then { tp with references := f tp.references } else tp) := fun i => by
  rw [Table.get_map]
  split
  · rename_i holds
    refine ⟨rfl, rfl, rfl, rfl, fun off => absurd ?_ off⟩
    simp only [TakePoint.holds, Bool.and_eq_true, beq_iff_eq] at holds
    exact holds.2.trans hp
  · exact ⟨rfl, rfl, rfl, rfl, fun _ => rfl⟩

theorem movesReferences_drop {d : Domain} {p : RingNo × Domain} (hp : p.2 = d) (t : Table 64 TakePoint) :
    MovesReferences d t (dropReference p t) := MovesReferences.map_holds hp t (· - 1)

theorem movesReferences_add {d : Domain} {p : RingNo × Domain} (hp : p.2 = d) (t : Table 64 TakePoint) :
    MovesReferences d t (addReference p t) := MovesReferences.map_holds hp t (· + 1)

/-- The pairs an entry needs in a domain are of that domain (R82). -/
theorem entryPairs_domain {e : Entry} {d : Domain} {p : RingNo × Domain} (h : p ∈ entryPairs e d) : p.2 = d := by
  unfold entryPairs at h
  split at h
  · cases h
  · split at h <;> simp only [List.mem_cons, List.not_mem_nil, or_false] at h
    · rw [h]
    · obtain rfl | rfl := h <;> rfl

theorem destPairs_domain {b : Bank} {x : Dest} {p : RingNo × Domain} (h : p ∈ destPairs b x) : p.2 = destDomain x := by
  unfold destPairs at h
  split at h
  · exact entryPairs_domain h
  · cases h

theorem movesReferences_endRamp (x : Dest) (s : State) : MovesReferences (destDomain x) s.tpt (endRamp x s).tpt := by
  unfold endRamp
  split
  · exact MovesReferences.refl _ _
  · exact MovesReferences.foldl (fun p hp t => movesReferences_drop (entryPairs_domain hp) t) _

theorem movesReferences_advanceRamp (x : Dest) (s : State) :
    MovesReferences (destDomain x) s.tpt (advanceRamp x s).tpt := by
  unfold advanceRamp
  split
  · exact MovesReferences.refl _ _
  · split
    · exact movesReferences_endRamp x s
    · exact MovesReferences.refl _ _

theorem movesReferences_switchDest (running : Bool) (p : Bank) (x : Dest) (s : State) :
    MovesReferences (destDomain x) s.tpt (switchDest running p x s).tpt := by
  unfold switchDest
  dsimp only
  refine ((movesReferences_endRamp x s).trans ?_).trans
    (MovesReferences.foldl (fun q hq t => movesReferences_add (destPairs_domain hq) t) _)
  split
  · exact MovesReferences.refl _ _
  · exact MovesReferences.foldl (fun q hq t => movesReferences_drop (destPairs_domain hq) t) _

theorem destDomain_domainDest (d : Domain) (k : Fin 16) : destDomain (domainDest d k) = d := by
  ext
  simp only [destDomain, domainDest]
  omega

/-- A walk over the destinations of a domain moves references of that domain alone, where each of its steps does. -/
theorem MovesReferences.walk {f : Dest → State → State}
    (h : ∀ x s, MovesReferences (destDomain x) s.tpt (f x s).tpt) (d : Domain) (s : State) :
    MovesReferences d s.tpt (walk ((List.finRange 16).map (domainDest d)) f s).tpt := by
  refine walk_holds (P := fun u => MovesReferences d s.tpt u.tpt) _ (fun x hx u hu => hu.trans ?_) s (MovesReferences.refl d _)
  obtain ⟨k, -, rfl⟩ := List.mem_map.1 hx
  have moves := h (domainDest d k) u
  rwa [destDomain_domainDest] at moves

theorem TakePoint.freedIfUnused_cases (tp : TakePoint) :
    (tp.references = 0 ∧ tp.reserved = false ∧ tp.freedIfUnused = { tp with state := .free }) ∨
      ((1 ≤ tp.references ∨ tp.reserved = true) ∧ tp.freedIfUnused = tp) := by
  unfold TakePoint.freedIfUnused
  split
  · rename_i unused
    exact Or.inl ⟨unused.1, unused.2, rfl⟩
  · rename_i used
    refine Or.inr ⟨?_, rfl⟩
    by_cases none : tp.references = 0
    · exact Or.inr (by simpa using fun h => used ⟨none, h⟩)
    · exact Or.inl (by omega)

theorem TakePoint.used_freedIfUnused (tp : TakePoint) : tp.freedIfUnused.Used := by
  obtain ⟨_, _, e⟩ | ⟨used, e⟩ := tp.freedIfUnused_cases
  · rw [e]
    exact Or.inl rfl
  · rw [e]
    exact Or.inr used

theorem TakePoint.pair_freedIfUnused (tp : TakePoint) : tp.freedIfUnused.ring = tp.ring ∧
    tp.freedIfUnused.domain = tp.domain ∧ tp.freedIfUnused.reserved = tp.reserved ∧
    (tp.freedIfUnused.state ≠ .free → tp.state ≠ .free) := by
  obtain ⟨_, _, e⟩ | ⟨_, e⟩ := tp.freedIfUnused_cases <;> rw [e] <;> simp

/-- References of a domain have been moved, and what is then unused in it is FREE (R56, R103). -/
theorem RecordsInForm.freed {s t : State} {d : Domain} {u : Table 64 TakePoint} (h : RecordsInForm s)
    (moves : MovesReferences d s.tpt u) (tpt : t.tpt = freeUnused d u) (ce : t.ce.inFlight.isSome = s.ce.inFlight.isSome) :
    RecordsInForm t := by
  have get : ∀ i, t.tpt.get i = if (u.get i).domain = d then (u.get i).freedIfUnused else u.get i := fun i => by
    rw [tpt, freeUnused, Table.get_map]
  refine ⟨h.distinct.of_pairsFrom fun i => ?_, fun i => ?_, fun i => ?_⟩
  · obtain ⟨state, ring, domain, -, -⟩ := moves i
    obtain ⟨fring, fdomain, -, fstate⟩ := (u.get i).pair_freedIfUnused
    rw [get, ← state, ← ring, ← domain]
    split
    · exact fun used => ⟨fstate used, fring, fdomain⟩
    · exact fun used => ⟨used, rfl, rfl⟩
  · rw [get]
    split
    · exact (u.get i).used_freedIfUnused
    · rename_i off
      obtain ⟨state, -, domain, reserved, references⟩ := moves i
      unfold TakePoint.Used
      rw [state, reserved, references (domain ▸ off)]
      exact h.used i
  · obtain ⟨-, -, -, reserved, -⟩ := moves i
    rw [get, ce, apply_ite TakePoint.reserved, (u.get i).pair_freedIfUnused.2.2.1, ite_self, reserved]
    exact h.reserved i

theorem endRamps_records (d : Domain) (s : State) (h : RecordsInForm s) : RecordsInForm (endRamps d s) :=
  h.freed (MovesReferences.walk movesReferences_endRamp d s) rfl (by rw [(frame_endRamps s d).ce rfl])

theorem advanceRamps_records (d : Domain) (s : State) (h : RecordsInForm s) : RecordsInForm (advanceRamps d s) :=
  h.freed (MovesReferences.walk movesReferences_advanceRamp d s) rfl (by rw [(frame_advanceRamps s d).ce rfl])

/-- The table after a switch: references move, and what is unused is freed (R103, R104). -/
theorem switchTo_tpt (d : Domain) (running : Bool) (p : Bank) (s : State) : (switchTo d running p s).tpt =
    freeUnused d (walk ((List.finRange 16).map (domainDest d)) (switchDest running p) s).tpt := by
  unfold switchTo
  dsimp only
  cases domainFeed? d <;> rfl

theorem switchDomain_records (d : Domain) (running : Bool) (s : State) (h : RecordsInForm s) :
    RecordsInForm (switchDomain d running s) := by
  unfold switchDomain
  split
  · exact h
  · rename_i c flight
    exact keeps_ite h (h.freed (MovesReferences.walk (movesReferences_switchDest running c.snapshot) d s)
      (switchTo_tpt d running c.snapshot s) (by simp [flight]))

/-! ## Allocation (R55, R100, R178) -/

theorem TakePoint.holds_iff (tp : TakePoint) (p : RingNo × Domain) :
    tp.holds p = true ↔ tp.state ≠ .free ∧ (tp.ring, tp.domain) = p := by
  unfold TakePoint.holds
  rw [Bool.and_eq_true, Bool.and_eq_true, bne_iff_ne, beq_iff_eq, beq_iff_eq, Prod.ext_iff, and_assoc]

/-- Some record holds the pair (R54). -/
theorem any_holds_iff (t : Table 64 TakePoint) (p : RingNo × Domain) :
    (t.cells.any fun tp => tp.holds p) = true ↔ ∃ i, (t.get i).holds p = true := by
  rw [List.any_eq_true]
  constructor
  · rintro ⟨tp, mem, holds⟩
    obtain ⟨i, rfl⟩ := (t.mem_cells_iff tp).1 mem
    exact ⟨i, holds⟩
  · rintro ⟨i, holds⟩
    exact ⟨t.get i, (t.mem_cells_iff _).2 ⟨i, rfl⟩, holds⟩

/-- A pair that no record holds can be allocated a record of its own. -/
theorem PairsDistinct.allocate {t : Table 64 TakePoint} (h : PairsDistinct t) {p : RingNo × Domain}
    (new : ∀ i, (t.get i).holds p = false) (reserved : Bool) (references : Nat) :
    PairsDistinct (allocate p reserved references t) := by
  obtain ⟨-, e⟩ | ⟨k, -, -, e⟩ := allocate_cases p reserved references t
  · rw [e]
    exact h
  · have other : ∀ j, k ≠ j → (t.get j).state ≠ .free → ((t.get j).ring, (t.get j).domain) ≠ p := fun j _ used same => by
      have holds := ((t.get j).holds_iff p).2 ⟨used, same⟩
      rw [new j] at holds
      cases holds
    intro i j ne
    rw [e, Table.get_set, Table.get_set]
    split
    · rename_i atI
      rw [if_neg (atI ▸ ne)]
      exact fun _ used => (other j (atI ▸ ne) used).symm
    · split
      · rename_i atI atJ
        exact fun used _ => other i atI used
      · exact h i j ne

theorem PairsDistinct.allocateReserved {t : Table 64 TakePoint} (h : PairsDistinct t) (p : RingNo × Domain) :
    PairsDistinct (allocateReserved t p) := by
  unfold Machine.allocateReserved
  split
  · exact h
  · rename_i new
    exact h.allocate (fun i => by
      rw [any_holds_iff] at new
      simpa using fun holds => new ⟨i, holds⟩) true 0

/-- A new allocation of a record in use. -/
theorem used_allocate {t : Table 64 TakePoint} (h : ∀ i, (t.get i).Used) (p : RingNo × Domain) {reserved : Bool}
    {references : Nat} (use : 1 ≤ references ∨ reserved = true) (i : RecordNo) :
    ((allocate p reserved references t).get i).Used := by
  obtain ⟨-, e⟩ | ⟨k, -, -, e⟩ := allocate_cases p reserved references t
  · rw [e]
    exact h i
  · rw [e, Table.get_set]
    split
    · exact Or.inr use
    · exact h i

/-- The records are distinct and used. -/
def TableInForm (t : Table 64 TakePoint) : Prop := PairsDistinct t ∧ ∀ i, (t.get i).Used

theorem allocateReserved_inForm {t : Table 64 TakePoint} (h : TableInForm t) (p : RingNo × Domain) :
    TableInForm (allocateReserved t p) :=
  ⟨h.1.allocateReserved p, fun i => by
    unfold allocateReserved
    split
    · exact h.2 i
    · exact used_allocate h.2 p (Or.inr rfl) i⟩

theorem accept_records (r : Requester) (s : State) (h : RecordsInForm s) :
    RecordsInForm ((s.setTpt (reserveFor (snapshotFor r s) s.tpt)).setCe
      { s.ce with inFlight := some (newInFlight r (snapshotFor r s) s) }) := by
  generalize snapshotFor r s = p
  obtain ⟨distinct, used⟩ := List.foldlRecOn (motive := TableInForm) (bankPairs p) allocateReserved ⟨h.distinct, h.used⟩
    fun t ht q _ => allocateReserved_inForm ht q
  refine ⟨distinct.of_pairsFrom fun i => ?_, fun i => ?_, fun _ _ => rfl⟩
  · simp only [State.setCe_fields, State.setTpt_fields, reserveFor, Table.get_map, TakePoint.reservedFor]
    split <;> exact fun used => ⟨used, rfl, rfl⟩
  · simp only [State.setCe_fields, State.setTpt_fields, reserveFor, Table.get_map, TakePoint.reservedFor]
    split
    · exact Or.inr (Or.inr rfl)
    · exact used i

/-- A completion clears the marks, and frees what only they kept (R106). -/
theorem complete_records (e : Engine) (s : State) (h : RecordsInForm s) :
    RecordsInForm ((s.setTpt (unreserve s.tpt)).setCe e) := by
  refine ⟨h.distinct.of_pairsFrom fun i => ?_, fun i => ?_, fun i => ?_⟩ <;>
    simp only [State.setCe_fields, State.setTpt_fields, unreserve, Table.get_map]
  · obtain ⟨ring, domain, -, state⟩ := TakePoint.pair_freedIfUnused { s.tpt.get i with reserved := false }
    exact fun used => ⟨state used, ring, domain⟩
  · exact TakePoint.used_freedIfUnused _
  · rw [(TakePoint.pair_freedIfUnused _).2.2.1]
    exact fun marked => by cases marked

/-! ## What every step keeps -/

theorem records_keptByEvents : KeptByEvents RecordsInForm where
  free k h := h.of_eq (k.tpt rfl) (k.ce rfl)
  report reason src s h := h.of_eq ((frame_report s reason src).tpt rfl) ((frame_report s reason src).ce rfl)
  notice s h := h.of_eq ((frame_noticeForNewest s).tpt rfl) ((frame_noticeForNewest s).ce rfl)
  ce _ _ e h := h.of_sameUses (SameUses.refl _) e
  switched d running _ s _ h := switchDomain_records d running s h
  accept r s _ h := accept_records r s h
  complete _ e s _ _ h := complete_records e s h
  resetRing r s h := h.of_sameUses (SameUses.map _ fun tp => tp.sameUse_movedOn r (by decide)) rfl
  starveRing r s h := h.of_sameUses (SameUses.map _ fun tp => tp.sameUse_movedOn r (by decide)) rfl
  startTakePoints d s h := h.of_sameUses (sameUses_startTakePoints d s) rfl
  judgeTakePoints d s h := h.of_sameUses (sameUses_judgeTakePoints d s) rfl
  writeEvent r sets s h := keeps_writeEvent (fun _ _ _ h => h.of_eq rfl rfl)
    (fun i s h => h.of_sameUses (sameUses_recentre i s) (by rw [(frame_recentre s i).ce rfl])) r sets s h
  emission d s h := keeps_emission (fun k h => h.of_eq (k.tpt rfl) (k.ce rfl))
    (fun reason src s h => h.of_eq ((frame_report s reason src).tpt rfl) ((frame_report s reason src).ce rfl))
    (fun i s h => h.of_sameUses (sameUses_recentre i s) (by rw [(frame_recentre s i).ce rfl]))
    (fun d s h => h.of_sameUses (sameUses_advanceTakes d s) rfl) advanceRamps_records d s h
  endRamps := endRamps_records

/-- The records are distinct and used, and none is reserved. -/
def LoadedInForm (t : Table 64 TakePoint) : Prop := TableInForm t ∧ ∀ i, (t.get i).reserved = false

theorem addReference_inForm {t : Table 64 TakePoint} (h : LoadedInForm t) (p : RingNo × Domain) :
    LoadedInForm (addReference p t) := by
  have moves := movesReferences_add (p := p) rfl t
  refine ⟨⟨h.1.1.of_pairsFrom fun i => ?_, fun i => ?_⟩, fun i => ?_⟩
  · obtain ⟨state, ring, domain, -, -⟩ := moves i
    exact fun used => ⟨state ▸ used, ring, domain⟩
  · unfold addReference
    rw [Table.get_map]
    split
    · exact Or.inr (Or.inl (Nat.le_add_left 1 _))
    · exact h.1.2 i
  · obtain ⟨-, -, -, reserved, -⟩ := moves i
    rw [reserved]
    exact h.2 i

theorem loadPair_inForm {t : Table 64 TakePoint} (h : LoadedInForm t) (p : RingNo × Domain) :
    LoadedInForm (loadPair t p) := by
  unfold loadPair
  split
  · exact addReference_inForm h p
  · rename_i new
    refine ⟨⟨h.1.1.allocate (fun i => ?_) false 1, used_allocate h.1.2 p (Or.inl le_rfl)⟩, fun i => ?_⟩
    · rw [any_holds_iff] at new
      simpa using fun holds => new ⟨i, holds⟩
    · obtain ⟨-, e⟩ | ⟨k, -, -, e⟩ := allocate_cases p false 1 t
      · rw [e]
        exact h.2 i
      · rw [e, Table.get_set]
        split
        · rfl
        · exact h.2 i

/-- Start-up allocates a record once to each pair, with a reference for each need (R178). -/
theorem loadedTable_inForm (b : Bank) : LoadedInForm (loadedTable b) :=
  List.foldlRecOn (bankPairs b) loadPair
    ⟨⟨fun i j _ hi => absurd (by simp [TakePoint.start]) hi, fun i => by simp [TakePoint.start, TakePoint.Used]⟩,
      fun i => by simp [TakePoint.start]⟩
    fun _ ht q _ => loadPair_inForm ht q

theorem startUp_records (cause : StartCause) (s : State) : RecordsInForm (startUp cause s) where
  distinct := (loadedTable_inForm s.store.bank).1.1
  used := (loadedTable_inForm s.store.bank).1.2
  reserved i marked := absurd (((loadedTable_inForm s.store.bank).2 i).symm.trans marked) (by decide)

theorem setStaging_records (b : Staging) (k : Bank) (s : State) (h : RecordsInForm s) : RecordsInForm (setStaging b k s) := by
  cases b <;> exact h.of_eq rfl rfl

theorem records_keptBySteps : KeptBySteps RecordsInForm where
  toKeptByEvents := records_keptByEvents
  settings k _ h := h.of_eq (k.tpt rfl) (k.ce rfl)
  presence _ _ _ _ h := h.of_eq rfl rfl
  writeEntry b _ _ _ _ _ _ _ _ _ _ _ s _ h := setStaging_records b _ s h
  writeMode b _ _ s h := setStaging_records b _ s h
  copyBank b _ s h := setStaging_records b _ s h
  setGuard _ _ _ _ _ _ _ _ h := h.of_eq rfl rfl
  storeFailsafe _ _ h := h.of_eq rfl rfl
  interrupted _ h := h.of_eq rfl rfl
  written _ h := h.of_eq rfl rfl
  faultsRead _ h := h.of_eq rfl rfl
  faultsCleared _ _ h := h.of_eq rfl rfl
  masked _ _ h := h.of_eq rfl rfl
  startUp cause s _ := startUp_records cause s

/-- Settles O57: the leaf operations keep a record's use, or move references within a domain and free what is left unused, or allocate to pairs that no record holds. -/
theorem recordInvariant : Obligations.RecordInvariant := by
  unfold Obligations.RecordInvariant
  intro s t distinct used next
  exact (recordsInForm_iff t).1 (records_keptBySteps.step s t ((recordsInForm_iff s).2 ⟨distinct, used⟩) next)

end Machine

end Sys2Proof
end

section
/-! PROOF. Every FR and its domain's phase stay in form, and the control feed is never OFF (R2, R7, R10, R17, R40, R170). Most operations leave the FRs, the phases and the choice of the control feed alone; a loss of lock and a SET FEED take an FR out of form and put it back part by part. -/

namespace Sys2Proof

namespace Machine

/-! ## The form -/

/-- An FR's form but for its quads outside LOCKED (R2, R17). -/
structure Receiver.StateFits (r : Receiver) : Prop where
  enabled : r.enabled = (r.state != .off)
  detected : r.detected.isSome = runningState r.state
  candidate : r.candidate = none ∨ r.state = .seeking
  settleFrames : r.settleFrames ≤ 15
  settleRemaining : r.settleRemaining ≤ 15
  empty : ∀ q, (r.quads.get q).empty ≤ 2

/-- Outside LOCKED the quads of an FR are UNKNOWN (R7, R10). -/
def Receiver.QuadsFit (r : Receiver) : Prop :=
  r.state ≠ .locked → ∀ q, (r.quads.get q).state = .unknown ∧ (r.quads.get q).empty = 0

theorem Receiver.wf_iff (r : Receiver) : r.wf = true ↔ r.StateFits ∧ r.QuadsFit := by
  unfold Receiver.wf
  simp only [Bool.and_eq_true, Bool.or_eq_true, beq_iff_eq, decide_eq_true_iff, Table.all_cells_iff, Option.isNone_iff_eq_none]
  constructor
  · rintro ⟨⟨⟨⟨⟨enabled, detected⟩, candidate⟩, frames⟩, remaining⟩, quads⟩
    exact ⟨⟨enabled, detected, candidate, frames, remaining, fun q => (quads q).1⟩,
      fun off q => (quads q).2.resolve_left off⟩
  · rintro ⟨⟨enabled, detected, candidate, frames, remaining, empty⟩, quads⟩
    exact ⟨⟨⟨⟨⟨enabled, detected⟩, candidate⟩, frames⟩, remaining⟩,
      fun q => ⟨empty q, or_iff_not_imp_left.2 fun off => quads off q⟩⟩

/-- FR f and its domain's phase are in form. -/
structure FeedInForm (s : State) (f : Feed) : Prop where
  state : (s.fr.get f).StateFits
  quads : (s.fr.get f).QuadsFit
  phase : phaseFits (s.fr.get f) (s.fmt.get f) = true

/-- Every FR is in form, and the control feed is not OFF. -/
structure FeedsInForm (s : State) : Prop where
  feed : ∀ f, FeedInForm s f
  control : (s.fr.get s.mgmt.controlFeed).state ≠ .off

theorem feedsInForm_iff (s : State) : FeedsInForm s ↔ s.feedsFit = true := by
  unfold State.feedsFit
  simp only [Bool.and_eq_true, List.all_eq_true, List.mem_finRange, true_implies, Receiver.wf_iff, bne_iff_ne]
  constructor
  · exact fun h => ⟨fun f => ⟨⟨(h.feed f).state, (h.feed f).quads⟩, (h.feed f).phase⟩, h.control⟩
  · exact fun h => ⟨fun f => ⟨(h.1 f).1.1, (h.1 f).1.2, (h.1 f).2⟩, h.2⟩

theorem phaseFits_congr {r r' : Receiver} {o o' : Formatter} (hr : r'.detected = r.detected) (ho : o'.phase = o.phase) :
    phaseFits r' o' = phaseFits r o := by
  unfold phaseFits
  rw [hr, ho]

/-! ## Operations that leave the FRs, the phases and the control feed -/

/-- From s to t the FRs, the phases of the domains and the choice of the control feed stay. -/
structure Steady (s t : State) : Prop where
  fr : t.fr = s.fr
  phase : ∀ f, (t.fmt.get f).phase = (s.fmt.get f).phase
  control : t.mgmt.controlFeed = s.mgmt.controlFeed

theorem Steady.refl (s : State) : Steady s s := ⟨rfl, fun _ => rfl, rfl⟩

theorem Steady.trans {s t u : State} (h : Steady s t) (k : Steady t u) : Steady s u :=
  ⟨k.fr.trans h.fr, fun f => (k.phase f).trans (h.phase f), k.control.trans h.control⟩

theorem controlFeed_of_settings {s t : State} (h : t.settings = s.settings) : t.mgmt.controlFeed = s.mgmt.controlFeed := by
  simp only [State.settings, Prod.mk.injEq] at h
  exact h.2.1

theorem Steady.of_frame {t : Touch} {s s' : State} (k : Frame t s s') (fr : t.fr = false := by rfl)
    (fmt : t.fmt = false := by rfl) (settings : t.settings = false := by rfl) : Steady s s' :=
  ⟨k.fr fr, fun _ => by rw [k.fmt fmt], controlFeed_of_settings (k.settings settings)⟩

theorem Steady.setFmt (s : State) (f : Feed) {o : Formatter} (h : o.phase = (s.fmt.get f).phase) : Steady s (s.setFmt f o) :=
  ⟨rfl, fun g => by
    simp only [State.setFmt_fields, Table.get_set]
    split
    · rename_i same
      rw [← same, h]
    · rfl, rfl⟩

theorem Steady.walk {α : Type} {f : α → State → State} (h : ∀ a s, Steady s (f a s)) (l : List α) (s : State) :
    Steady s (walk l f s) := keeps_walk (P := Steady s) (fun a u hu => hu.trans (h a u)) l s (Steady.refl s)

theorem FeedsInForm.of_steady {s t : State} (h : FeedsInForm s) (k : Steady s t) : FeedsInForm t where
  feed f :=
    { state := k.fr ▸ (h.feed f).state
      quads := k.fr ▸ (h.feed f).quads
      phase := by
        rw [k.fr, phaseFits_congr (o := s.fmt.get f) rfl (k.phase f)]
        exact (h.feed f).phase }
  control := by
    rw [k.fr, k.control]
    exact h.control

theorem steady_report (reason : Reason) (src : FaultSource) (s : State) : Steady s (report reason src s) :=
  Steady.of_frame (frame_report s reason src)

theorem Steady.ite {s a b : State} {c : Prop} [Decidable c] (ha : Steady s a) (hb : Steady s b) :
    Steady s (if c then a else b) := keeps_ite ha hb

/-! ### Emissions and commits -/

theorem steady_emitTo (d : Domain) (v : LineSet) (s : State) : Steady s (emitTo d v s) := by
  unfold emitTo
  split
  · exact Steady.setFmt s _ rfl
  · exact ⟨rfl, fun _ => rfl, rfl⟩

theorem steady_emission (d : Domain) (s : State) : Steady s (emission d s) := by
  have reads (v) := (Steady.of_frame (frame_underruns s d)).trans (Steady.of_frame (frame_emissionReads d v (underruns d s)))
  exact (reads _).trans ((Steady.of_frame (frame_advanceTakes _ d)).trans
    ((Steady.of_frame (frame_advanceRamps _ d)).trans (steady_emitTo d _ _)))

theorem steady_switchTo (d : Domain) (running : Bool) (p : Bank) (s : State) : Steady s (switchTo d running p s) := by
  have walked : Steady s (walk ((List.finRange 16).map (domainDest d)) (switchDest running p) s) :=
    Steady.walk (fun x s => Steady.of_frame (frame_switchDest s running p x)) _ s
  unfold switchTo
  dsimp only
  cases domainFeed? d with
  | none => exact walked.trans ⟨rfl, fun _ => rfl, rfl⟩
  | some f => exact (walked.trans (Steady.setFmt _ f (o := restartBuilt f p s.active _) rfl)).trans ⟨rfl, fun _ => rfl, rfl⟩

theorem steady_switchDomain (d : Domain) (running : Bool) (s : State) : Steady s (switchDomain d running s) := by
  unfold switchDomain
  split
  · exact Steady.refl s
  · exact Steady.ite (Steady.refl s) ((steady_switchTo d running _ s).trans (Steady.of_frame (frame_setCe _ _)))

theorem steady_acceptCommit (r : Requester) (p : Bank) (s : State) : Steady s (acceptCommit r p s) :=
  ((Steady.of_frame (frame_setTpt s _)).trans (Steady.of_frame (frame_setCe _ _))).trans
    (Steady.walk (fun f s => Steady.ite (Steady.refl s) (steady_switchDomain _ _ s)) _ _)

theorem steady_validate (r : Requester) (s : State) : Steady s (validate r s) :=
  Steady.ite (Steady.of_frame (frame_refuseCommit s _ _ _ _ _))
    (Steady.ite (Steady.of_frame (frame_refuseCommit s _ _ _ _ _)) (steady_acceptCommit r _ s))

theorem steady_takeWaiting (order : List Requester) (s : State) : Steady s (takeWaiting order s) := by
  induction order generalizing s with
  | nil => exact Steady.refl s
  | cons r rest ih =>
    have taken := ((Steady.of_frame (frame_setCe s { s.ce with waiting := rest })).trans
      (Steady.of_frame (frame_leaveOrder _ r))).trans (steady_validate r _)
    unfold takeWaiting
    exact Steady.ite taken (taken.trans (ih _))

theorem steady_requestCommit (r : Requester) (s : State) : Steady s (requestCommit r s) :=
  Steady.ite (steady_validate r s) (Steady.ite (Steady.refl s) (Steady.of_frame (frame_setCe s _)))

theorem steady_completeCommit (c : InFlight) (s : State) : Steady s (completeCommit c s) :=
  (Steady.of_frame (frame_setTpt s _)).trans ((Steady.of_frame (frame_setCe _ _)).trans
    ((Steady.of_frame (frame_endCommit _ c)).trans (steady_takeWaiting _ _)))

theorem steady_completeIfSwitched (s : State) : Steady s (completeIfSwitched s) := by
  unfold completeIfSwitched
  split
  · exact Steady.refl s
  · exact Steady.ite (steady_completeCommit _ s) (Steady.refl s)

theorem steady_switchAt (d : Domain) (running : Bool) (s : State) : Steady s (switchAt d running s) :=
  (steady_switchDomain d running s).trans (steady_completeIfSwitched _)

theorem steady_takeStamp (f : Feed) (rate : Nat) (t : Stamp) (s : State) : Steady s (takeStamp f rate t s) :=
  Steady.walk (fun c s => Steady.ite
    (Steady.ite ((Steady.of_frame (frame_setCue s c _)).trans (steady_requestCommit _ _))
      ((Steady.of_frame (frame_setCue s c _)).trans (steady_requestCommit _ _))) (Steady.refl s)) _ s

/-! ### The silence timer and domain 8 -/

theorem steady_setMgmt (s : State) {m : Management} (h : m.controlFeed = s.mgmt.controlFeed := by rfl) :
    Steady s (s.setMgmt m) := ⟨rfl, fun _ => rfl, h⟩

theorem steady_takeExpiry (s : State) : Steady s (takeExpiry s) := by
  refine Steady.ite ?_ (Steady.refl s)
  have told := (steady_setMgmt s (m := { s.mgmt with timerRunning := false, remaining := 0 })).trans
    (steady_report .controlSilence (managementSource s) _)
  unfold expireSilence
  dsimp only
  split
  · exact told
  · exact told.trans (steady_requestCommit _ _)

theorem steady_restartTimer (s : State) : Steady s (restartTimer s) := by
  unfold restartTimer
  dsimp only
  refine (steady_takeExpiry s).trans ?_
  split <;> exact steady_setMgmt _

theorem steady_emitOnce (f : Feed) (s : State) : Steady s (emitOnce f s) := Steady.ite (steady_emission _ s) (Steady.refl s)

theorem steady_instantPart (carried : Bool) (lines : LineSet) (p : Part) (s : State) :
    Steady s (instantPart carried lines p s) := by
  cases p
  case takePoints => exact Steady.of_frame (frame_judgeTakePoints s _)
  case switch => exact steady_switchAt _ _ s
  case clips => exact Steady.of_frame (frame_handOverClips s _)
  case presence => exact Steady.ite (Steady.of_frame (frame_judgeTrack s _)) (Steady.refl s)
  case silence => exact Steady.of_frame (frame_countSilence s)
  case emission => exact (steady_emission domain8 s).trans (Steady.of_frame (frame_setRu _ _))
  case lineWrite => exact Steady.of_frame (frame_writeLineRing s _ _)
  case lineOffer => exact Steady.of_frame (frame_offerLine s _ _)
  all_goals exact Steady.refl s

theorem steady_takeParts (ticks : List LineSet) (carried : Bool) (taken parts : List Part) (s : State) :
    Steady s (takeParts ticks carried taken parts s) := by
  induction parts generalizing taken s with
  | nil => exact Steady.refl s
  | cons p rest ih => exact (steady_instantPart _ _ p s).trans (ih _ _)

theorem steady_runningTicks (ticks : List LineSet) (order frameOrder : List Part) (s : State) :
    Steady s (runningTicks ticks order frameOrder s) :=
  ((Steady.of_frame (frame_setLineIn s _)).trans (steady_takeParts _ _ _ _ _)).trans (steady_takeParts _ _ _ _ _)

theorem steady_endingTicks (realign : Bool) (ticks : List LineSet) (order frameOrder : List Part) (s : State) :
    Steady s (endingTicks realign ticks order frameOrder s) :=
  ((Steady.of_frame (frame_setLineIn s _)).trans (steady_takeParts _ _ _ _ _)).trans
    ((Steady.of_frame (frame_turnFrame8 _ _)).trans (steady_takeParts _ _ _ _ _))

theorem steady_setTickEvent (e : Time) (lines : LineSet) (order frameOrder : List Part) (s : State) :
    Steady s (setTickEvent e lines order frameOrder s) := by
  unfold setTickEvent
  dsimp only
  refine (Steady.of_frame (frame_passTime s e)).trans (Steady.ite (Steady.refl _) ?_)
  generalize passTime e s = s0
  have first : Steady s0 (if frameTicks s0.ru ≤ s0.ru.ticks then endingTicks false [] [] frameOrder s0 else s0) :=
    Steady.ite (steady_endingTicks _ _ _ _ _) (Steady.refl _)
  exact first.trans (Steady.ite (steady_endingTicks _ _ _ _ _) (steady_runningTicks _ _ _ _))

theorem steady_pulseEvent (e : Time) (owed : OwedTicks) (frameOrder : List Part) (s : State) :
    Steady s (pulseEvent e owed frameOrder s) := by
  unfold pulseEvent
  dsimp only
  refine (Steady.of_frame (frame_passTime s e)).trans ?_
  split
  · exact (Steady.of_frame (frame_setRu _ _)).trans ((steady_endingTicks _ _ _ _ _).trans
      ((steady_report _ _ _).trans (Steady.of_frame (frame_setRu _ _))))
  · exact Steady.ite ((steady_endingTicks _ _ _ _ _).trans (Steady.of_frame (frame_setRu _ _)))
      (Steady.of_frame (frame_setRu _ _))

theorem steady_waitTimeoutEvent (e : Time) (owed : OwedTicks) (frameOrder : List Part) (s : State) :
    Steady s (waitTimeoutEvent e owed frameOrder s) :=
  (Steady.of_frame (frame_passTime s e)).trans (Steady.ite (steady_endingTicks _ _ _ _ _) (Steady.refl _))

/-! ## One FR changed -/

theorem setFr_get (s : State) (f g : Feed) (r : Receiver) : (s.setFr f r).fr.get g = if f = g then r else s.fr.get g :=
  Table.get_set _ _ _ _

theorem FeedInForm.setFr_other {s : State} {f g : Feed} (h : FeedInForm s g) (ne : f ≠ g) (r : Receiver) :
    FeedInForm (s.setFr f r) g := by
  obtain ⟨state, quads, phase⟩ := h
  constructor <;> rwa [setFr_get, if_neg ne]

/-- An FR in form put in the place of another, OFF only where it does not carry the control feed. -/
theorem FeedsInForm.setFr {s : State} (h : FeedsInForm s) {f : Feed} {r : Receiver} (state : r.StateFits)
    (quads : r.QuadsFit) (phase : phaseFits r (s.fmt.get f) = true) (on : r.state ≠ .off) : FeedsInForm (s.setFr f r) where
  feed g := by
    by_cases same : f = g
    · subst same
      constructor <;> rw [setFr_get, if_pos rfl]
      · exact state
      · exact quads
      · exact phase
    · exact (h.feed g).setFr_other same r
  control := by
    rw [setFr_get]
    split
    · exact on
    · exact h.control

/-- An FR changed in what its form does not speak of. -/
theorem FeedsInForm.setFr_of_eq {s : State} (h : FeedsInForm s) {f : Feed} {r : Receiver}
    (e : (r.enabled, r.state, r.settleFrames, r.settleRemaining, r.detected, r.candidate, r.quads) =
      ((s.fr.get f).enabled, (s.fr.get f).state, (s.fr.get f).settleFrames, (s.fr.get f).settleRemaining,
        (s.fr.get f).detected, (s.fr.get f).candidate, (s.fr.get f).quads)) : FeedsInForm (s.setFr f r) where
  feed g := by
    by_cases same : f = g
    · subst same
      simp only [Prod.mk.injEq] at e
      obtain ⟨enabled, state, frames, remaining, detected, candidate, quads⟩ := e
      obtain ⟨fits, quadsFit, phase⟩ := h.feed f
      refine ⟨?_, ?_, ?_⟩ <;> rw [setFr_get, if_pos rfl]
      · exact ⟨by rw [enabled, state]; exact fits.enabled, by rw [detected, state]; exact fits.detected,
          by rw [candidate, state]; exact fits.candidate, by rw [frames]; exact fits.settleFrames,
          by rw [remaining]; exact fits.settleRemaining, by rw [quads]; exact fits.empty⟩
      · unfold Receiver.QuadsFit
        rw [state, quads]
        exact quadsFit
      · exact (phaseFits_congr detected rfl).trans phase
    · exact (h.feed g).setFr_other same r
  control := by
    simp only [Prod.mk.injEq] at e
    rw [setFr_get]
    split
    · rename_i same
      rw [e.2.1, same]
      exact h.control
    · exact h.control

end Machine

end Sys2Proof
end

section
/-! PROOF. The feed form through the boundaries, losses of lock and lines of a feed (R5 to R10, R17, R40). -/

namespace Sys2Proof

namespace Machine

/-! ## A formatter changed -/

theorem setFmt_get (s : State) (f g : Feed) (o : Formatter) :
    (s.setFmt f o).fmt.get g = if f = g then o else s.fmt.get g := Table.get_set _ _ _ _

theorem FeedsInForm.setFmt {s : State} (h : FeedsInForm s) {f : Feed} {o : Formatter}
    (phase : phaseFits (s.fr.get f) o = true) : FeedsInForm (s.setFmt f o) where
  feed g :=
    { state := (h.feed g).state
      quads := (h.feed g).quads
      phase := by
        rw [setFmt_get]
        split
        · rename_i same
          exact same ▸ phase
        · exact (h.feed g).phase }
  control := h.control

theorem cadenceLength_pos (fm : Format) : 0 < cadenceLength fm := by
  unfold cadenceLength
  split <;> decide

theorem phaseFits_zero {r : Receiver} {o : Formatter} (h : o.phase = 0) : phaseFits r o = true := by
  unfold phaseFits
  split
  · rw [h, decide_eq_true_iff]
    exact cadenceLength_pos _
  · rw [h]
    rfl

theorem phaseFits_of_none {r : Receiver} {o : Formatter} (h : r.detected = none) :
    phaseFits r o = true ↔ o.phase = 0 := by
  unfold phaseFits
  rw [h]
  exact beq_iff_eq

/-! ## An FR in LOCKED, and the packets it takes -/

/-- The feeds are in form, and FR f is in LOCKED. -/
def LockedForm (f : Feed) (s : State) : Prop := FeedsInForm s ∧ (s.fr.get f).state = .locked

theorem LockedForm.of_steady {f : Feed} {s t : State} (h : LockedForm f s) (k : Steady s t) : LockedForm f t :=
  ⟨h.1.of_steady k, by rw [k.fr]; exact h.2⟩

/-- The quads of an FR in LOCKED may be in any state, with their empty-frame counts in range (R10). -/
theorem LockedForm.setQuads {f : Feed} {s : State} (h : LockedForm f s) {quads : Table 4 QuadTrack}
    (empty : ∀ q, (quads.get q).empty ≤ 2) : LockedForm f (s.setFr f { s.fr.get f with quads := quads }) := by
  have fits := (h.1.feed f).state
  refine ⟨h.1.setFr { fits with empty := empty } (fun off => absurd h.2 off) ?_ ?_, ?_⟩
  · exact (phaseFits_congr rfl rfl).trans (h.1.feed f).phase
  · show (s.fr.get f).state ≠ .off
    rw [h.2]
    decide
  · rw [setFr_get, if_pos rfl]
    exact h.2

theorem LockedForm.setQuad {f : Feed} {s : State} (h : LockedForm f s) (q : Quad) {k : QuadTrack} (hk : k.empty ≤ 2) :
    LockedForm f (s.setFr f { s.fr.get f with quads := (s.fr.get f).quads.set q k }) :=
  h.setQuads fun p => by
    rw [Table.get_set]
    split
    · exact hk
    · exact (h.1.feed f).state.empty p

theorem LockedForm.changeQuad {f : Feed} {s : State} (h : LockedForm f s) (q : Quad) (g : QuadTrack → QuadTrack)
    (hg : ∀ k, k.empty ≤ 2 → (g k).empty ≤ 2) : LockedForm f (changeQuad f q g s) :=
  h.setQuad q (hg _ ((h.1.feed f).state.empty q))

theorem LockedForm.claim {f : Feed} {s : State} (h : LockedForm f s) (q : Quad) : LockedForm f (claim f q s) :=
  ⟨h.1.setFr_of_eq rfl, by
    unfold Machine.claim
    rw [setFr_get, if_pos rfl]
    exact h.2⟩

theorem LockedForm.acceptSound {f : Feed} {s : State} (h : LockedForm f s) (q : Quad) (p : Packet) :
    LockedForm f (acceptSound f q p s) := by
  have present : LockedForm f (makePresent f q s) :=
    keeps_ite h ((h.changeQuad q (fun k => { k with state := .present }) fun _ hk => hk).of_steady
      (Steady.of_frame (frame_resetRing _ (feedRing f q))))
  have written := (present.of_steady (Steady.of_frame (frame_writeEvent _ (feedRing f q) p.soundSets))).of_steady
    (Steady.of_frame (frame_offerSets _ (feedRing f q) p.soundSets))
  exact written.changeQuad q _ fun _ _ => Nat.zero_le 2

theorem LockedForm.checkSequence {f : Feed} {s : State} (h : LockedForm f s) (q : Quad) (count : BitVec 4) :
    LockedForm f (checkSequence f q count s) :=
  LockedForm.changeQuad (keeps_ite (h.of_steady (steady_report _ _ s)) h) q _ fun _ hk => hk

theorem LockedForm.lockedSound {f : Feed} {s : State} (h : LockedForm f s) (line : Nat) (q : Quad) (p : Packet) :
    LockedForm f (lockedSound f line q p s) := by
  have claimed := h.claim q
  refine keeps_ite (keeps_ite (claimed.of_steady (steady_report _ _ _)) ((claimed.checkSequence q _).acceptSound q p)) ?_
  exact (h.changeQuad q (fun k => { k with basePending := true, tracker := Tracker.rebase }) fun _ hk => hk).of_steady
    (steady_report _ _ _)

theorem soundPacket_feeds (f : Feed) (line : Nat) (p : Packet) (s : State) (h : FeedsInForm s) :
    FeedsInForm (soundPacket f line p s) := by
  unfold soundPacket
  split
  · exact h
  · rename_i q _
    have remembered : FeedsInForm (remember f q p s) := keeps_ite (h.setFr_of_eq rfl) h
    dsimp only
    split
    · rename_i locked
      exact (LockedForm.lockedSound ⟨remembered, locked⟩ line q p).1
    · exact remembered

theorem passThrough_feeds (f : Feed) (p : Packet) (s : State) (h : FeedsInForm s) : FeedsInForm (passThrough f p s) :=
  keeps_ite (h.setFr_of_eq rfl) h

theorem stampPacket_feeds (f : Feed) (p : Packet) (s : State) (h : FeedsInForm s) : FeedsInForm (stampPacket f p s) := by
  unfold stampPacket
  refine passThrough_feeds f p _ ?_
  split
  · exact keeps_ite (h.of_steady (steady_takeStamp f _ _ s)) h
  · exact h

/-! ## A running FR, and the parts of a boundary it runs on through -/

theorem StateFits.running_on {r : Receiver} (h : r.StateFits) (running : runningState r.state = true) :
    r.enabled = true ∧ r.candidate = none := by
  have on : r.state ≠ .off ∧ r.state ≠ .seeking := by
    constructor <;> rintro state <;> rw [state] at running <;> cases running
  exact ⟨by rw [h.enabled]; simpa using on.1, h.candidate.resolve_right on.2⟩

/-- A running FR enters LOCKED in form (R6). -/
theorem enterLocked_feeds (f : Feed) (s : State) (h : FeedsInForm s) (running : runningState (s.fr.get f).state = true) :
    LockedForm f (enterLocked f s) := by
  have fits := (h.feed f).state
  obtain ⟨enabled, candidate⟩ := StateFits.running_on fits running
  have entered : LockedForm f (s.setFr f { s.fr.get f with
      state := .locked, quads := (s.fr.get f).quads.map QuadTrack.entered }) := by
    refine ⟨h.setFr { fits with enabled := enabled, detected := fits.detected.trans running, candidate := Or.inl candidate,
                                empty := fun q => by rw [Table.get_map]; exact Nat.zero_le 2 }
      (fun off => absurd rfl off) ((phaseFits_congr rfl rfl).trans (h.feed f).phase) (fun off => by cases off), ?_⟩
    rw [setFr_get, if_pos rfl]
  exact entered.of_steady (Steady.walk (fun q s => Steady.of_frame (frame_resetRing s (feedRing f q))) _ _)

/-- A boundary at which FR f runs on, from state st: the feeds are in form, and FR f runs, in LOCKED if it was there. -/
def RunsOnForm (f : Feed) (st : FrState) (s : State) : Prop :=
  FeedsInForm s ∧ runningState (s.fr.get f).state = true ∧ (st = .locked → (s.fr.get f).state = .locked)

theorem RunsOnForm.of_steady {f : Feed} {st : FrState} {s t : State} (h : RunsOnForm f st s) (k : Steady s t) :
    RunsOnForm f st t := ⟨h.1.of_steady k, by rw [k.fr]; exact h.2⟩

theorem LockedForm.runsOn {f : Feed} {s : State} (h : LockedForm f s) (st : FrState) : RunsOnForm f st s :=
  ⟨h.1, by rw [h.2]; rfl, fun _ => h.2⟩

/-- A quad with its frame's packet counted (R10). -/
def QuadTrack.counted (k : QuadTrack) : QuadTrack :=
  { k with empty := if k.carried then k.empty else min 2 (k.empty + 1), carried := false }

theorem closeQuadFrame_eq (f : Feed) (q : Quad) (s : State) :
    let k := (s.fr.get f).quads.get q
    let counted := s.setFr f { s.fr.get f with quads := (s.fr.get f).quads.set q k.counted }
    closeQuadFrame f q s =
      if k.carried = false ∧ k.counted.empty = 2 ∧ k.state ≠ .absent then quadAbsent f q counted else counted := rfl

theorem closeQuadFrame_locked {f : Feed} {s : State} (h : LockedForm f s) (q : Quad) : LockedForm f (closeQuadFrame f q s) := by
  have fits := (h.1.feed f).state.empty q
  have counted := h.setQuad q (k := ((s.fr.get f).quads.get q).counted) (by
    unfold QuadTrack.counted
    dsimp only
    split <;> omega)
  rw [closeQuadFrame_eq]
  refine keeps_ite ?_ counted
  have starved := (counted.of_steady (Steady.of_frame (frame_starveRing _ (feedRing f q)))).of_steady
    (Steady.of_frame (frame_resetTracksOfRing _ (feedRing f q)))
  exact starved.setQuad q ((starved.1.feed f).state.empty q)

theorem judgeCadence_locked {f : Feed} {s : State} (h : LockedForm f s) (fm : Format) (q : Quad) :
    LockedForm f (judgeCadence f fm q s) := by
  have judged := h.changeQuad q (fun k => { k with tracker := trackerClosed fm ((s.fr.get f).quads.get q).tracker })
    fun _ hk => hk
  exact keeps_ite (judged.of_steady (steady_report _ _ _)) judged

theorem settleStep_runsOn {f : Feed} {st : FrState} {s : State} (h : RunsOnForm f st s) : RunsOnForm f st (settleStep f s) := by
  obtain ⟨form, running, locked⟩ := h
  obtain ⟨fits, quads, phase⟩ := form.feed f
  have on : (s.fr.get f).state ≠ .off := fun off => by rw [off] at running; cases running
  have counted : RunsOnForm f st (s.setFr f { s.fr.get f with settleRemaining := (s.fr.get f).settleRemaining - 1 }) := by
    refine ⟨form.setFr { fits with settleRemaining := (Nat.sub_le _ 1).trans fits.settleRemaining } quads
      ((phaseFits_congr rfl rfl).trans phase) on, ?_⟩
    rw [setFr_get, if_pos rfl]
    exact ⟨running, locked⟩
  exact keeps_ite (P := RunsOnForm f st) ((enterLocked_feeds f _ counted.1 counted.2.1).runsOn st) counted

/-- Quads' empty frames and cadences are judged in LOCKED alone, and nothing at a boundary that an FR runs on through leaves LOCKED. -/
theorem mem_matchedParts {st : FrState} {p : Part} (h : p ∈ matchedParts st) :
    (∀ q, p = .absence q ∨ p = .cadence q → st = .locked) ∧ p ≠ .leaveLocked ∧ p ≠ .stop := by
  cases st <;> simp [matchedParts] at h ⊢ <;> grind

theorem boundaryPart_runsOn (f : Feed) (fm : Format) {st : FrState} {p : Part} (hp : p ∈ matchedParts st) (s : State)
    (h : RunsOnForm f st s) : RunsOnForm f st (boundaryPart f fm p s) := by
  obtain ⟨judged, notLeave, notStop⟩ := mem_matchedParts hp
  cases p
  case takePoints => exact h.of_steady (Steady.of_frame (frame_judgeTakePoints s _))
  case switch => exact h.of_steady (steady_switchAt _ _ s)
  case clips => exact h.of_steady (Steady.of_frame (frame_handOverClips s _))
  case presence => exact h.of_steady (Steady.of_frame (frame_judgeFeedTrack s f _))
  case absence q => exact (closeQuadFrame_locked ⟨h.1, h.2.2 (judged q (Or.inl rfl))⟩ q).runsOn st
  case cadence q => exact (judgeCadence_locked ⟨h.1, h.2.2 (judged q (Or.inr rfl))⟩ fm q).runsOn st
  case dueCount => exact h.of_steady (Steady.of_frame (frame_countDue s f))
  case pathCheck => exact h.of_steady (Steady.of_frame (frame_pathCheckBoundary s f))
  case settle => exact settleStep_runsOn h
  case leaveLocked => exact absurd rfl notLeave
  case stop => exact absurd rfl notStop
  all_goals exact h

theorem matchedBoundary_feeds {f : Feed} {fm : Format} {s : State} (h : FeedsInForm s)
    (running : runningState (s.fr.get f).state = true) (detected : (s.fr.get f).detected = some fm) (order : List Part) :
    FeedsInForm (matchedBoundary f fm order s) := by
  have opened : RunsOnForm f (s.fr.get f).state (openFrame f fm s) := by
    refine RunsOnForm.of_steady (s := s.setFmt f _) ⟨h.setFmt ?_, running, id⟩ (Steady.of_frame (frame_freshRound _ _))
    unfold phaseFits
    rw [detected, decide_eq_true_iff]
    exact Nat.mod_lt _ (cadenceLength_pos fm)
  refine (walk_holds (P := RunsOnForm f (s.fr.get f).state) _ (fun p hp s hs => ?_) _ opened).1
  exact boundaryPart_runsOn f fm ((schedule_perm _ _).mem_iff.1 hp) s hs

/-! ## An FR that stops running -/

/-- The feeds are in form but for the quads and the phase of FR f, which no longer runs. -/
structure LosingForm (f : Feed) (s : State) : Prop where
  others : ∀ g, g ≠ f → FeedInForm s g
  state : (s.fr.get f).StateFits
  stopped : runningState (s.fr.get f).state = false
  control : (s.fr.get s.mgmt.controlFeed).state ≠ .off

theorem LosingForm.notLocked {f : Feed} {s : State} (h : LosingForm f s) : (s.fr.get f).state ≠ .locked := fun locked => by
  have stopped := h.stopped
  rw [locked] at stopped
  cases stopped

theorem LosingForm.detected {f : Feed} {s : State} (h : LosingForm f s) : (s.fr.get f).detected = none := by
  have fits := h.state.detected
  rw [h.stopped] at fits
  simpa using fits

/-- With its quads UNKNOWN and the phase 0, the FR that stopped is in form again. -/
theorem LosingForm.feedsInForm {f : Feed} {s : State} (h : LosingForm f s) (quads : (s.fr.get f).QuadsFit)
    (phase : (s.fmt.get f).phase = 0) : FeedsInForm s where
  feed g := by
    by_cases same : g = f
    · subst same
      exact ⟨h.state, quads, phaseFits_zero phase⟩
    · exact h.others g same
  control := h.control

theorem FeedInForm.of_same {s t : State} {g : Feed} (h : FeedInForm s g) (fr : t.fr.get g = s.fr.get g)
    (phase : (t.fmt.get g).phase = (s.fmt.get g).phase) : FeedInForm t g :=
  ⟨fr ▸ h.state, fr ▸ h.quads, by rw [fr, phaseFits_congr (o := s.fmt.get g) rfl phase]; exact h.phase⟩

theorem LosingForm.of_steady {f : Feed} {s t : State} (h : LosingForm f s) (k : Steady s t) : LosingForm f t :=
  ⟨fun g ne => (h.others g ne).of_same (by rw [k.fr]) (k.phase g), k.fr ▸ h.state, k.fr ▸ h.stopped, by
    rw [k.fr, k.control]
    exact h.control⟩

/-- A stop puts the phase to 0, and changes no FR and no other phase (R15, R40). -/
theorem stopDomain_feeds (f : Feed) (s : State) : Steady (s.setFmt f { s.fmt.get f with phase := 0, sets := [] }) (stopDomain f s) := by
  unfold stopDomain
  dsimp only
  generalize s.setFmt f _ = s1
  exact (Steady.of_frame (frame_endRamps s1 (feedDomain f))).trans
    ((Steady.of_frame (frame_clearClips _ (feedDomain f))).trans ((Steady.of_frame (frame_stopRound _ (feedDomain f))).trans
      ((steady_switchAt (feedDomain f) false _).trans (Steady.of_frame (frame_pathCheckStop _ f)))))

theorem stopDomain_fr (f : Feed) (s : State) : (stopDomain f s).fr = s.fr := (stopDomain_feeds f s).fr

theorem stopDomain_phase (f g : Feed) (s : State) :
    ((stopDomain f s).fmt.get g).phase = if f = g then 0 else (s.fmt.get g).phase := by
  rw [(stopDomain_feeds f s).phase g, setFmt_get]
  split <;> rfl

theorem LosingForm.stop {f : Feed} {s : State} (h : LosingForm f s) : LosingForm f (stopDomain f s) where
  others g ne := (h.others g ne).of_same (by rw [stopDomain_fr]) (by rw [stopDomain_phase, if_neg (Ne.symm ne)])
  state := by
    rw [stopDomain_fr]
    exact h.state
  stopped := by
    rw [stopDomain_fr]
    exact h.stopped
  control := by
    rw [stopDomain_fr, (stopDomain_feeds f s).control]
    exact h.control

/-- Leaving LOCKED changes the quads of the FR alone among the FRs (R7). -/
theorem leaveLocked_feeds (f : Feed) (s : State) :
    Steady (s.setFr f { s.fr.get f with quads := (s.fr.get f).quads.map QuadTrack.left }) (leaveLocked f s) := by
  have starved : Steady s (resetFeedTracks f (walk (List.finRange 4) (fun q => starveRing (feedRing f q)) s)) :=
    (Steady.walk (fun q s => Steady.of_frame (frame_starveRing s (feedRing f q))) _ s).trans
      (Steady.of_frame (frame_resetFeedTracks _ f))
  refine ⟨?_, starved.phase, starved.control⟩
  show (State.setFr _ f _).fr = _
  simp only [State.setFr_fields, starved.fr]

theorem leaveLocked_fr (f g : Feed) (s : State) : (leaveLocked f s).fr.get g =
    if f = g then { s.fr.get f with quads := (s.fr.get f).quads.map QuadTrack.left } else s.fr.get g := by
  rw [(leaveLocked_feeds f s).fr]
  exact setFr_get s f g _

theorem StateFits.left {r : Receiver} (h : r.StateFits) : Receiver.StateFits { r with quads := r.quads.map QuadTrack.left } :=
  { h with empty := fun q => by rw [Table.get_map]; exact Nat.zero_le 2 }

theorem quadsFit_left (r : Receiver) : Receiver.QuadsFit { r with quads := r.quads.map QuadTrack.left } := fun _ q => by
  rw [Table.get_map]
  exact ⟨rfl, rfl⟩

theorem LosingForm.leave {f : Feed} {s : State} (h : LosingForm f s) : LosingForm f (leaveLocked f s) where
  others g ne := (h.others g ne).of_same (by rw [leaveLocked_fr, if_neg (Ne.symm ne)]) ((leaveLocked_feeds f s).phase g)
  state := by
    rw [leaveLocked_fr, if_pos rfl]
    exact StateFits.left h.state
  stopped := by
    rw [leaveLocked_fr, if_pos rfl]
    exact h.stopped
  control := by
    rw [leaveLocked_fr, (leaveLocked_feeds f s).control]
    split
    · rename_i same
      have control := h.control
      rw [show s.mgmt.controlFeed = f from same.symm] at control
      exact control
    · exact h.control

theorem leaveLocked_quadsFit (f : Feed) (s : State) : ((leaveLocked f s).fr.get f).QuadsFit := by
  rw [leaveLocked_fr, if_pos rfl]
  exact quadsFit_left _

/-- The parts of a loss of lock: the effects of leaving LOCKED where the FR was LOCKED, the stop, and the count of DUE cues. -/
theorem mem_lossParts {st : FrState} {p : Part} (h : p ∈ lossParts st ++ [.dueCount]) :
    p = .leaveLocked ∨ p = .stop ∨ p = .dueCount := by
  unfold lossParts at h
  split at h <;> simp_all

theorem boundaryPart_losing (f : Feed) (fm : Format) {p : Part} (hp : p = .leaveLocked ∨ p = .stop ∨ p = .dueCount) (s : State)
    (h : LosingForm f s) : LosingForm f (boundaryPart f fm p s) := by
  obtain rfl | rfl | rfl := hp
  · exact h.leave
  · exact h.stop
  · exact h.of_steady (Steady.of_frame (frame_countDue s f))

theorem boundaryPart_losing_quads (f : Feed) (fm : Format) {p : Part} (hp : p = .leaveLocked ∨ p = .stop ∨ p = .dueCount)
    (s : State) (h : (s.fr.get f).QuadsFit) : ((boundaryPart f fm p s).fr.get f).QuadsFit := by
  obtain rfl | rfl | rfl := hp
  · exact leaveLocked_quadsFit f s
  · show ((stopDomain f s).fr.get f).QuadsFit
    rw [stopDomain_fr]
    exact h
  · exact h

theorem boundaryPart_losing_phase (f : Feed) (fm : Format) {p : Part} (hp : p = .leaveLocked ∨ p = .stop ∨ p = .dueCount)
    (s : State) (h : (s.fmt.get f).phase = 0) : ((boundaryPart f fm p s).fmt.get f).phase = 0 := by
  obtain rfl | rfl | rfl := hp
  · exact ((leaveLocked_feeds f s).phase f).trans h
  · show ((stopDomain f s).fmt.get f).phase = 0
    rw [stopDomain_phase, if_pos rfl]
  · exact h

/-- A running FR that loses lock ends in SEEKING in form, in whatever order the parts are taken (R7). -/
theorem loseLock_feeds {f : Feed} {s : State} (h : FeedsInForm s) (running : runningState (s.fr.get f).state = true)
    (fm : Format) (candidate : Option Format) (order : List Part) {extra : List Part} (he : ∀ p ∈ extra, p = .dueCount) :
    FeedsInForm (loseLock f fm candidate order extra s) := by
  obtain ⟨fits, quads, -⟩ := h.feed f
  have parts : ∀ p ∈ schedule order (lossParts (s.fr.get f).state ++ extra), p = .leaveLocked ∨ p = .stop ∨ p = .dueCount := by
    intro p hp
    obtain mem | mem := List.mem_append.1 ((schedule_perm _ _).mem_iff.1 hp)
    · exact mem_lossParts (List.mem_append_left _ mem)
    · exact Or.inr (Or.inr (he p mem))
  have seeking : LosingForm f (report .lockLost (.inputFeed f)
      (s.setFr f { s.fr.get f with state := .seeking, detected := none, candidate := candidate })) := by
    refine LosingForm.of_steady ⟨fun g ne => (h.feed g).setFr_other (Ne.symm ne) _, ?_, ?_, ?_⟩ (steady_report _ _ _)
    · rw [setFr_get, if_pos rfl]
      exact { fits with enabled := (StateFits.running_on fits running).1, detected := rfl, candidate := Or.inr rfl }
    · rw [setFr_get, if_pos rfl]
      rfl
    · rw [setFr_get]
      split
      · exact FrState.noConfusion
      · exact h.control
  have kept : LosingForm f (loseLock f fm candidate order extra s) :=
    walk_holds (P := LosingForm f) _ (fun p hp s hs => boundaryPart_losing f fm (parts p hp) s hs) _ seeking
  refine kept.feedsInForm ?_ ?_
  · by_cases locked : (s.fr.get f).state = .locked
    · exact walk_brings (P := fun _ => True) (Q := fun s => (s.fr.get f).QuadsFit) (f := boundaryPart f fm) (b := .leaveLocked)
        (fun _ _ _ _ => trivial)
        (fun p hp s _ hq => boundaryPart_losing_quads f fm (parts p hp) s hq) (fun s _ => leaveLocked_quadsFit f s)
        ((schedule_perm _ _).mem_iff.2 (by simp [lossParts, locked])) trivial
    · refine walk_holds (P := fun s => (s.fr.get f).QuadsFit) _
        (fun p hp s hq => boundaryPart_losing_quads f fm (parts p hp) s hq) _ ?_
      show ((report _ _ _).fr.get f).QuadsFit
      rw [(steady_report _ _ _).fr, setFr_get, if_pos rfl]
      exact fun _ => quads locked
  · refine walk_brings (P := fun _ => True) (Q := fun s => (s.fmt.get f).phase = 0) (f := boundaryPart f fm) (b := .stop)
      (fun _ _ _ _ => trivial)
      (fun p hp s _ hq => boundaryPart_losing_phase f fm (parts p hp) s hq) (fun s _ => ?_)
      ((schedule_perm _ _).mem_iff.2 (by unfold lossParts; split <;> simp)) trivial
    exact (stopDomain_phase f f s).trans (if_pos rfl)

end Machine

end Sys2Proof
end

section
/-! PROOF. The feed form through identification, SET FEED, the other commands and a whole step (R5, R6, R17, R170). -/

namespace Sys2Proof

namespace Machine

/-! ## Identification and frame marks (R5, R6) -/

theorem setFr_setFr (s : State) (f : Feed) (r r' : Receiver) : (s.setFr f r).setFr f r' = s.setFr f r' := by
  unfold State.setFr
  congr 1
  exact Table.ext_get fun g => by simp only [Table.get_set]; split <;> rfl

/-- An operation that changes one FR and its phase, and leaves them in form. -/
theorem FeedsInForm.of_change {s t : State} (h : FeedsInForm s) {f : Feed} (fr : ∀ g, g ≠ f → t.fr.get g = s.fr.get g)
    (phase : ∀ g, g ≠ f → (t.fmt.get g).phase = (s.fmt.get g).phase) (feed : FeedInForm t f)
    (control : t.mgmt.controlFeed = s.mgmt.controlFeed) (on : f = s.mgmt.controlFeed → (t.fr.get f).state ≠ .off) :
    FeedsInForm t where
  feed g := by
    by_cases same : g = f
    · exact same ▸ feed
    · exact (h.feed g).of_same (fr g same) (phase g same)
  control := by
    rw [control]
    by_cases same : s.mgmt.controlFeed = f
    · rw [same]
      exact on same.symm
    · rw [fr _ same]
      exact h.control

/-- A domain's start puts its phase to 0 (R40). -/
theorem startDomain_phase (f g : Feed) (s : State) :
    ((startDomain f s).fmt.get g).phase = if f = g then 0 else (s.fmt.get g).phase := by
  unfold startDomain
  dsimp only
  rw [(frame_freshRound _ _).fmt rfl, (frame_startTakePoints _ _).fmt rfl, setFmt_get]
  split <;> rfl

/-- An FR in form takes a running state other than LOCKED, and its domain starts (R5, R6, R15). -/
theorem startDomain_feeds {f : Feed} {s : State} (h : FeedsInForm s) {r : Receiver} (state : r.StateFits)
    (quads : r.QuadsFit) (running : runningState r.state = true) : FeedsInForm (startDomain f (s.setFr f r)) := by
  have started := frame_startDomain (s.setFr f r) f
  have fr : ∀ g, (startDomain f (s.setFr f r)).fr.get g = if f = g then r else s.fr.get g := fun g => by
    rw [started.fr rfl, setFr_get]
  refine h.of_change (f := f) (fun g ne => by rw [fr, if_neg (Ne.symm ne)])
    (fun g ne => by rw [startDomain_phase, if_neg (Ne.symm ne)]; rfl) ?_ (controlFeed_of_settings (started.settings rfl)) fun _ => ?_
  · refine ⟨?_, ?_, phaseFits_zero (by rw [startDomain_phase, if_pos rfl])⟩ <;> rw [fr, if_pos rfl]
    · exact state
    · exact quads
  · rw [fr, if_pos rfl]
    exact fun off => by rw [off] at running; cases running

theorem identify_feeds {f : Feed} {fm : Format} {s : State} (h : FeedsInForm s) (seeking : (s.fr.get f).state = .seeking) :
    FeedsInForm (identify f fm s) := by
  obtain ⟨fits, quads, -⟩ := h.feed f
  have unknown := quads (by rw [seeking]; decide)
  have enabled : (s.fr.get f).enabled = true := by rw [fits.enabled, seeking]; rfl
  unfold identify
  dsimp only
  split
  · have settling := startDomain_feeds (f := f) h (r := { s.fr.get f with
        state := .settling, detected := some fm, candidate := none, settleRemaining := (s.fr.get f).settleFrames })
      { fits with enabled := enabled, detected := rfl, candidate := Or.inl rfl, settleRemaining := fits.settleFrames }
      (fun _ => unknown) rfl
    refine keeps_ite (enterLocked_feeds f _ settling ?_).1 settling
    rw [(frame_startDomain _ f).fr rfl, setFr_get, if_pos rfl]
    rfl
  · exact (startDomain_feeds (f := f) h (r := { s.fr.get f with state := .wrongFormat, detected := some fm, candidate := none })
      { fits with enabled := enabled, detected := rfl, candidate := Or.inl rfl } (fun _ => unknown) rfl).of_steady
      (steady_report _ _ _)

theorem setFr_feeds_of_seeking {f : Feed} {s : State} (h : FeedsInForm s) (seeking : (s.fr.get f).state = .seeking)
    (c : Option Format) : FeedsInForm (s.setFr f { s.fr.get f with candidate := c }) := by
  obtain ⟨fits, quads, phase⟩ := h.feed f
  exact h.setFr { fits with candidate := Or.inr seeking } quads ((phaseFits_congr rfl rfl).trans phase)
    (fun off => by rw [show (s.fr.get f).state = .off from off] at seeking; cases seeking)

theorem seekBoundary_feeds {f : Feed} {s : State} (h : FeedsInForm s) (seeking : (s.fr.get f).state = .seeking)
    (m : Option Format) : FeedsInForm (seekBoundary f m s) := by
  unfold seekBoundary
  cases m with
  | none => exact setFr_feeds_of_seeking h seeking none
  | some fm => exact keeps_ite (identify_feeds h seeking) (setFr_feeds_of_seeking h seeking (some fm))

theorem closeFrame_feeds {f : Feed} {s : State} (h : FeedsInForm s) (on : (s.fr.get f).state ≠ .off) (m : Option Format)
    (order : List Part) : FeedsInForm (closeFrame f m order s) := by
  unfold closeFrame
  dsimp only
  split
  · rename_i running
    split
    · exact h
    · rename_i fm detected
      exact keeps_ite (matchedBoundary_feeds h running detected order)
        (loseLock_feeds h running fm m order fun p hp => by simpa using hp)
  · rename_i still
    refine (seekBoundary_feeds h ?_ m).of_steady (Steady.of_frame (frame_countDue _ f))
    cases state : (s.fr.get f).state <;> simp_all [runningState]

theorem frameMark_feeds (f : Feed) (period : Time) (order : List Part) (s : State) (h : FeedsInForm s) :
    FeedsInForm (frameMark f period order s) := by
  unfold frameMark
  dsimp only
  split
  · exact h
  · rename_i on
    have counted : FeedsInForm (s.setFr f { s.fr.get f with lineCount := 1, frameOpen := true }) := h.setFr_of_eq rfl
    refine keeps_ite (closeFrame_feeds counted ?_ _ order) counted
    rw [setFr_get, if_pos rfl]
    exact on

theorem lineGap_feeds (f : Feed) (order : List Part) (s : State) (h : FeedsInForm s) : FeedsInForm (lineGap f order s) := by
  unfold lineGap
  dsimp only
  split
  · rename_i running
    split
    · exact h
    · exact loseLock_feeds h running _ none order fun p hp => by cases hp
  · exact h

/-! ## SET FEED (R17) -/

theorem toWrongFormat_fr (f g : Feed) (s : State) :
    (toWrongFormat f s).fr.get g = if f = g then { s.fr.get f with state := .wrongFormat } else s.fr.get g := by
  unfold toWrongFormat
  rw [(steady_report _ _ _).fr, setFr_get]

theorem toWrongFormat_rest (f : Feed) (s : State) :
    (∀ g, ((toWrongFormat f s).fmt.get g).phase = (s.fmt.get g).phase) ∧
      (toWrongFormat f s).mgmt.controlFeed = s.mgmt.controlFeed :=
  ⟨(steady_report .formatMismatch (.inputFeed f) _).phase, (steady_report .formatMismatch (.inputFeed f) _).control⟩

theorem toWrongFormat_feeds {f : Feed} {s : State} (h : FeedsInForm s) (settling : (s.fr.get f).state = .settling) :
    FeedsInForm (toWrongFormat f s) := by
  obtain ⟨fits, quads, phase⟩ := h.feed f
  refine FeedsInForm.of_steady (h.setFr (f := f) (r := { s.fr.get f with state := .wrongFormat }) ?_ ?_ ?_ ?_) (steady_report _ _ _)
  · exact { fits with
      enabled := fits.enabled.trans (by rw [settling]; rfl)
      detected := fits.detected.trans (by rw [settling]; rfl)
      candidate := Or.inl (fits.candidate.resolve_right (by rw [settling]; decide)) }
  · exact fun _ => quads (by rw [settling]; decide)
  · exact (phaseFits_congr rfl rfl).trans phase
  · exact FrState.noConfusion

/-- An FR in LOCKED that goes to WRONG FORMAT leaves LOCKED (R7, R17). -/
theorem leaveLocked_toWrongFormat_feeds {f : Feed} {s : State} (h : LockedForm f s) :
    FeedsInForm (leaveLocked f (toWrongFormat f s)) := by
  obtain ⟨fits, -, phase⟩ := h.1.feed f
  obtain ⟨phases, control⟩ := toWrongFormat_rest f s
  have fr : ∀ g, (leaveLocked f (toWrongFormat f s)).fr.get g =
      if f = g then { s.fr.get f with state := .wrongFormat, quads := (s.fr.get f).quads.map QuadTrack.left } else s.fr.get g := by
    intro g
    rw [leaveLocked_fr, toWrongFormat_fr, toWrongFormat_fr, if_pos rfl]
    split <;> rfl
  have left := leaveLocked_feeds f (toWrongFormat f s)
  have phases' : ∀ g, ((leaveLocked f (toWrongFormat f s)).fmt.get g).phase = (s.fmt.get g).phase :=
    fun g => (left.phase g).trans (phases g)
  refine h.1.of_change (f := f) (fun g ne => by rw [fr, if_neg (Ne.symm ne)]) (fun g _ => phases' g) ?_
    (left.control.trans control) fun _ => by rw [fr, if_pos rfl]; exact FrState.noConfusion
  refine ⟨?_, ?_, ?_⟩ <;> rw [fr, if_pos rfl]
  · refine StateFits.left (r := { s.fr.get f with state := .wrongFormat }) { fits with
      enabled := fits.enabled.trans (by rw [h.2]; rfl)
      detected := fits.detected.trans (by rw [h.2]; rfl)
      candidate := Or.inl (fits.candidate.resolve_right (by rw [h.2]; decide)) }
  · exact quadsFit_left { s.fr.get f with state := .wrongFormat }
  · exact (phaseFits_congr rfl (phases' f)).trans phase

theorem setFr_feeds_of_wrongFormat {f : Feed} {s : State} (h : FeedsInForm s) (wrong : (s.fr.get f).state = .wrongFormat) :
    FeedsInForm (s.setFr f { s.fr.get f with state := .settling, settleRemaining := (s.fr.get f).settleFrames }) := by
  obtain ⟨fits, quads, phase⟩ := h.feed f
  refine h.setFr ?_ (fun _ => quads (by rw [wrong]; decide)) ((phaseFits_congr rfl rfl).trans phase) FrState.noConfusion
  exact { fits with
    enabled := fits.enabled.trans (by rw [wrong]; rfl)
    detected := fits.detected.trans (by rw [wrong]; rfl)
    candidate := Or.inl (fits.candidate.resolve_right (by rw [wrong]; decide))
    settleRemaining := fits.settleFrames }

/-- SET FEED with enable 1 of an FR that is not OFF moves it between running states, or not at all (R17). -/
theorem enableFeed_feeds {f : Feed} {s : State} (h : FeedsInForm s) (on : (s.fr.get f).state ≠ .off) :
    FeedsInForm (enableFeed f s) := by
  obtain ⟨fits, quads, phase⟩ := h.feed f
  unfold enableFeed
  dsimp only
  split
  · rename_i off
    exact absurd off on
  · exact h
  · rename_i settling
    refine keeps_ite (h.setFr { fits with settleRemaining := fits.settleFrames } quads
      ((phaseFits_congr rfl rfl).trans phase) on) (toWrongFormat_feeds h settling)
  · rename_i locked
    exact keeps_ite h (leaveLocked_toWrongFormat_feeds ⟨h, locked⟩)
  · rename_i wrong
    exact keeps_ite (setFr_feeds_of_wrongFormat h wrong) h

/-- The settings that SET FEED stores (R17). -/
def Receiver.stored (r : Receiver) (enable : Bool) (expected : Option Format) (settle : Nat) : Receiver :=
  { r with enabled := enable, expected := expected, settleFrames := settle }

theorem setFeedTo_eq (f : Feed) (enable : Bool) (expected : Option Format) (settle : Nat) (s : State) :
    let s1 := s.setFr f ((s.fr.get f).stored enable expected settle)
    setFeedTo f enable expected settle s = if enable then enableFeed f s1 else disableFeed f s1 := rfl

theorem setFeedTo_enable_feeds (f : Feed) (expected : Option Format) {settle : Nat} (hn : settle ≤ 15) {s : State}
    (h : FeedsInForm s) : FeedsInForm (setFeedTo f true expected settle s) := by
  obtain ⟨fits, quads, phase⟩ := h.feed f
  rw [setFeedTo_eq, if_pos rfl]
  by_cases off : (s.fr.get f).state = .off
  · unfold enableFeed
    dsimp only
    simp only [setFr_get, if_pos, setFr_setFr, Receiver.stored, off]
    refine h.setFr ?_ (fun _ => quads (by rw [off]; decide)) ((phaseFits_congr rfl rfl).trans phase) FrState.noConfusion
    exact { fits with
      enabled := rfl
      detected := fits.detected.trans (by rw [off]; rfl)
      candidate := Or.inl rfl
      settleFrames := hn }
  · refine enableFeed_feeds (h.setFr ?_ quads ((phaseFits_congr rfl rfl).trans phase) off) ?_
    · exact { fits with enabled := by simpa [Receiver.stored] using off, settleFrames := hn }
    · rw [setFr_get, if_pos rfl]
      exact off

/-- SET FEED with enable 0, which the control feed is refused: the FR goes to OFF, a running one through a stop (R17). -/
theorem setFeedTo_disable_feeds (f : Feed) (expected : Option Format) {settle : Nat} (hn : settle ≤ 15) {s : State}
    (h : FeedsInForm s) (other : f ≠ s.mgmt.controlFeed) : FeedsInForm (setFeedTo f false expected settle s) := by
  obtain ⟨fits, quads, phase⟩ := h.feed f
  rw [setFeedTo_eq, if_neg (by decide)]
  have off : LosingForm f (s.setFr f { (s.fr.get f).stored false expected settle with
      state := .off, detected := none, candidate := none, frameOpen := false }) := by
    refine ⟨fun g ne => (h.feed g).setFr_other (Ne.symm ne) _, ?_, ?_, ?_⟩
    · rw [setFr_get, if_pos rfl]
      exact { fits with enabled := rfl, detected := rfl, candidate := Or.inl rfl, settleFrames := hn }
    · rw [setFr_get, if_pos rfl]
      rfl
    · show ((s.setFr f _).fr.get s.mgmt.controlFeed).state ≠ .off
      rw [setFr_get, if_neg other]
      exact h.control
  have stay : ∀ st, (s.fr.get f).state = st → st ≠ .locked → ((s.setFr f { (s.fr.get f).stored false expected settle with
      state := .off, detected := none, candidate := none, frameOpen := false }).fr.get f).QuadsFit := fun st state ne => by
    rw [setFr_get, if_pos rfl]
    exact fun _ => quads (state ▸ ne)
  unfold disableFeed
  dsimp only
  simp only [setFr_get, if_pos, setFr_setFr]
  split
  · rename_i state
    refine h.of_change (f := f) (fun g ne => by rw [setFr_get, if_neg (Ne.symm ne)]) (fun _ _ => rfl) ?_ rfl
      fun same => absurd same other
    refine ⟨?_, ?_, ?_⟩ <;> rw [setFr_get, if_pos rfl]
    · exact { fits with enabled := by rw [show _ = FrState.off from state]; rfl, settleFrames := hn }
    · exact quads
    · exact (phaseFits_congr rfl rfl).trans phase
  · rename_i state
    refine off.feedsInForm (stay _ state (by decide)) ((phaseFits_of_none ?_).1 phase)
    have detected := fits.detected
    rw [show (s.fr.get f).state = FrState.seeking from state] at detected
    simpa [runningState] using detected
  · rename_i state
    refine off.stop.feedsInForm ?_ ((stopDomain_phase f f _).trans (if_pos rfl))
    rw [stopDomain_fr]
    exact stay _ state (by decide)
  · rename_i state
    refine off.stop.feedsInForm ?_ ((stopDomain_phase f f _).trans (if_pos rfl))
    rw [stopDomain_fr]
    exact stay _ state (by decide)
  · refine off.leave.stop.feedsInForm ?_ ((stopDomain_phase f f _).trans (if_pos rfl))
    rw [stopDomain_fr]
    exact leaveLocked_quadsFit f _

/-! ## The commands that answer at once -/

/-- From s to t a command leaves the feeds, the PC, the pins, and of Management and the CE everything but the waiting notice and a withdrawn cue. -/
structure CommandKeeps (s t : State) : Prop where
  fr : t.fr = s.fr
  fmt : t.fmt = s.fmt
  pc : t.pc = s.pc
  pins : t.pins = s.pins
  mgmt : ∃ n, t.mgmt = { s.mgmt with notice := n }
  ce : t.ce = s.ce ∨ ∃ c : CueNo, t.ce = { s.ce with waiting := s.ce.waiting.filter fun r => r != .cue c }

theorem CommandKeeps.refl (s : State) : CommandKeeps s s := ⟨rfl, rfl, rfl, rfl, ⟨s.mgmt.notice, rfl⟩, Or.inl rfl⟩

/-- An operation beside these blocks. -/
theorem CommandKeeps.of_frame {t : Touch} {s s' : State} (k : Frame t s s') (h : (t.fr || t.fmt || t.pc || t.pins || t.mgmt ||
    t.ce) = false := by rfl) : CommandKeeps s s' := by
  simp only [Bool.or_eq_false_iff] at h
  obtain ⟨⟨⟨⟨⟨fr, fmt⟩, pc⟩, pins⟩, mgmt⟩, ce⟩ := h
  exact ⟨k.fr fr, k.fmt fmt, k.pc pc, k.pins pins, ⟨s.mgmt.notice, by rw [k.mgmt mgmt]⟩, Or.inl (k.ce ce)⟩

/-- An act answers at once, and keeps this much. -/
def Act.AnswersFrom (s : State) (a : Act) : Prop := ∃ v words t, a = .answered v words t ∧ CommandKeeps s t

theorem Act.AnswersFrom.same (v : Verdict) (words : List Word) (s : State) : (Act.answered v words s).AnswersFrom s :=
  ⟨v, words, s, rfl, CommandKeeps.refl s⟩

theorem Act.AnswersFrom.of_keeps {s t : State} (v : Verdict) (words : List Word) (k : CommandKeeps s t) :
    (Act.answered v words t).AnswersFrom s := ⟨v, words, t, rfl, k⟩

theorem commandKeeps_replaceCue (c : CueNo) (q : Cue) (s : State) : CommandKeeps s ((withdrawCue c s).setCue c q) :=
  ⟨rfl, rfl, rfl, rfl, ⟨s.mgmt.notice, rfl⟩, Or.inr ⟨c, rfl⟩⟩

theorem commandKeeps_noticeForNewest (s : State) : CommandKeeps s (noticeForNewest s) := by
  obtain ⟨n, p, e, -⟩ := noticeForNewest_eq s
  rw [e]
  exact ⟨rfl, rfl, rfl, rfl, ⟨n, rfl⟩, Or.inl rfl⟩

theorem commandKeeps_setStaging (b : Staging) (k : Bank) (s : State) : CommandKeeps s (setStaging b k s) := by
  cases b <;> exact ⟨rfl, rfl, rfl, rfl, ⟨s.mgmt.notice, rfl⟩, Or.inl rfl⟩

theorem commandKeeps_resets (rings : List RingNo) (s : State) : CommandKeeps s (walk rings resetRing s) :=
  CommandKeeps.of_frame (Frame.walk (fun r s => frame_resetRing s r) rings s)

/-- The rows whose commands answer at once and leave the feeds and the control settings: all but the five named. -/
def CommandRow.plain (r : CommandRow) : Prop :=
  r ≠ .setFeed ∧ r ≠ .setControl ∧ r ≠ .commit ∧ r ≠ .startPathCheck ∧ r ≠ .resetDevice

/-- What a command of a plain row comes to. -/
theorem act_answersFrom {r : CommandRow} (h : r.plain) (args : List Word) (s : State) : (act r args s).AnswersFrom s := by
  have same := fun v words => Act.AnswersFrom.same v words s
  have rest : ∀ v words t, t.fr = s.fr → t.fmt = s.fmt → t.pc = s.pc → t.pins = s.pins → t.mgmt = s.mgmt → t.ce = s.ce →
      (Act.answered v words t).AnswersFrom s := fun v words t fr fmt pc pins mgmt ce =>
    Act.AnswersFrom.of_keeps v words ⟨fr, fmt, pc, pins, ⟨s.mgmt.notice, mgmt⟩, Or.inl ce⟩
  obtain ⟨notFeed, notControl, notCommit, notCheck, notReset⟩ := h
  cases r <;> dsimp only [act]
  case setFeed => exact absurd rfl notFeed
  case setControl => exact absurd rfl notControl
  case commit => exact absurd rfl notCommit
  case startPathCheck => exact absurd rfl notCheck
  case resetDevice => exact absurd rfl notReset
  case readFeed => unfold actReadFeed; (repeat' split) <;> exact same _ _
  case readTakePoints => unfold actReadTakePoints; (repeat' split) <;> exact same _ _
  case readEntry => unfold actReadEntry; (repeat' split) <;> exact same _ _
  case readQuadModes => unfold actReadQuadModes; (repeat' split) <;> exact same _ _
  case readGuards => unfold actReadGuards; (repeat' split) <;> exact same _ _
  case readCues => unfold actReadCues; (repeat' split) <;> exact same _ _
  case readDevice => unfold actReadDevice; (repeat' split) <;> exact same _ _
  case setReference =>
    unfold actSetReference
    split
    · split
      · exact rest _ _ _ rfl rfl rfl rfl rfl rfl
      · exact same _ _
    · exact same _ _
  case flush =>
    unfold actFlush
    split
    · exact Act.AnswersFrom.of_keeps _ _ (commandKeeps_resets _ s)
    · exact same _ _
  case writeEntry =>
    unfold actWriteEntry
    split
    · split
      · exact Act.AnswersFrom.of_keeps _ _ (commandKeeps_setStaging _ _ s)
      · exact same _ _
    · exact same _ _
  case writeQuadMode =>
    unfold actWriteQuadMode
    split
    · split
      · exact Act.AnswersFrom.of_keeps _ _ (commandKeeps_setStaging _ _ s)
      · exact same _ _
    · exact same _ _
  case copyBank =>
    unfold actCopyBank
    split
    · split
      · exact Act.AnswersFrom.of_keeps _ _ (commandKeeps_setStaging _ _ s)
      · exact same _ _
    · exact same _ _
  case setGuard =>
    unfold actSetGuard
    split
    · split
      · split
        · exact same _ _
        · split
          · exact same _ _
          · exact rest _ _ _ rfl rfl rfl rfl rfl rfl
      · exact same _ _
    · exact same _ _
  case armCue =>
    unfold actArmCue
    split
    · split
      · exact Act.AnswersFrom.of_keeps _ _ (commandKeeps_replaceCue _ _ s)
      · exact same _ _
    · exact same _ _
  case disarmCue =>
    unfold actDisarmCue
    split
    · split
      · exact Act.AnswersFrom.of_keeps _ _ (commandKeeps_replaceCue _ _ s)
      · exact same _ _
    · exact same _ _
  case setPresence =>
    unfold actSetPresence
    split
    · exact same _ _
    · exact rest _ _ _ rfl rfl rfl rfl rfl rfl
    · exact same _ _
  case setMixerCheck =>
    unfold actSetMixerCheck
    split
    · exact same _ _
    · split
      · exact rest _ _ _ rfl rfl rfl rfl rfl rfl
      · exact same _ _
    · exact same _ _
  case readFaults =>
    unfold actReadFaults
    split
    · split
      · exact rest _ _ _ rfl rfl rfl rfl rfl rfl
      · exact same _ _
    · exact same _ _
  case clearFaults =>
    unfold actClearFaults
    split
    · split
      · exact rest _ _ _ rfl rfl rfl rfl rfl rfl
      · exact same _ _
    · exact same _ _
  case setNotices =>
    unfold actSetNotices
    split
    · exact Act.AnswersFrom.of_keeps _ _ (commandKeeps_noticeForNewest s)
    · split
      · rename_i m _
        obtain ⟨fr, fmt, pc, pins, mgmt, ce⟩ := commandKeeps_noticeForNewest (s.setLog { s.log with masked := m })
        exact Act.AnswersFrom.of_keeps _ _ ⟨fr, fmt, pc, pins, mgmt, ce⟩
      · exact same _ _
    · exact same _ _
  case storeFailsafe =>
    unfold actStoreFailsafe
    split
    · split
      · dsimp only
        split
        · exact same _ _
        · split
          · exact same _ _
          · exact rest _ _ _ rfl rfl rfl rfl rfl rfl
      · exact same _ _
    · exact same _ _

/-! ## The commands, and what every step keeps -/

theorem CommandKeeps.steady {s t : State} (k : CommandKeeps s t) : Steady s t :=
  ⟨k.fr, fun f => by rw [k.fmt], by obtain ⟨n, e⟩ := k.mgmt; rw [e]⟩

theorem answered_feeds {v : Verdict} {words : List Word} {s : State} (h : FeedsInForm s) :
    FeedsInForm (Act.answered v words s).run := h.of_steady (Steady.of_frame (frame_answerCommand s v words))

theorem actSetFeed_feeds (args : List Word) (s : State) (h : FeedsInForm s) : FeedsInForm (actSetFeed args s).run := by
  unfold actSetFeed
  split
  · split
    · rename_i f enable expected settle _ _ _ _
      split
      · exact answered_feeds h
      · rename_i allowed
        refine answered_feeds ?_
        cases enable with
        | true => exact setFeedTo_enable_feeds f expected (by omega) h
        | false => exact setFeedTo_disable_feeds f expected (by omega) h fun same => allowed ⟨rfl, same⟩
    · exact answered_feeds h
  · exact answered_feeds h

/-- SET CONTROL is refused where the new control feed is OFF (R170). -/
theorem actSetControl_feeds (args : List Word) (s : State) (h : FeedsInForm s) : FeedsInForm (actSetControl args s).run := by
  unfold actSetControl
  split
  · split
    · rename_i control answer time action _ _ _ _
      split
      · exact answered_feeds h
      · rename_i on
        have expired := h.of_steady (steady_takeExpiry s)
        have live : ((takeExpiry s).fr.get control).state ≠ .off := by
          rw [(steady_takeExpiry s).fr]
          exact on
        have set : FeedsInForm ((takeExpiry s).setMgmt { (takeExpiry s).mgmt with
            controlFeed := control, answerFeed := answer, silenceTime := time, silenceAction := action }) :=
          ⟨fun f => ⟨(expired.feed f).state, (expired.feed f).quads, (expired.feed f).phase⟩, live⟩
        exact answered_feeds (set.of_steady (steady_restartTimer _))
    · exact answered_feeds h
  · exact answered_feeds h

theorem act_feeds (r : CommandRow) (args : List Word) (s : State) (h : FeedsInForm s) : FeedsInForm (act r args s).run := by
  by_cases plain : r.plain
  · obtain ⟨v, words, t, e, keeps⟩ := act_answersFrom plain args s
    rw [e]
    exact answered_feeds (h.of_steady keeps.steady)
  · cases r
    case setFeed => exact actSetFeed_feeds args s h
    case setControl => exact actSetControl_feeds args s h
    case commit =>
      dsimp only [act]
      unfold actCommit
      split
      · split
        · exact h.of_steady (steady_requestCommit _ s)
        · exact answered_feeds h
      · exact answered_feeds h
    case startPathCheck =>
      have set : ∀ p, FeedsInForm (s.setPc p) := fun p => h.of_steady (Steady.of_frame (frame_setPc s p))
      dsimp only [act]
      unfold actStartPathCheck
      split
      · split
        · dsimp only
          split
          · exact set _
          · exact answered_feeds (set _)
        · exact answered_feeds h
      · exact answered_feeds h
    case resetDevice =>
      dsimp only [act]
      unfold actResetDevice
      split
      · exact (h.of_steady (steady_setMgmt s)).of_steady (Steady.of_frame (frame_setPins _ _))
      · exact answered_feeds h
    all_goals exact absurd (by simp [CommandRow.plain]) plain

theorem takeCommand_feeds (c : Command) (s : State) (h : FeedsInForm s) : FeedsInForm (takeCommand c s) := by
  have executing : FeedsInForm (execute s) := h.of_steady (steady_setMgmt s)
  unfold takeCommand
  split
  · exact executing.of_steady (Steady.of_frame (frame_answerCommand _ _ _))
  · exact act_feeds _ _ _ executing

theorem finish_feeds (s : State) (h : FeedsInForm s) : FeedsInForm (finish s) := by
  unfold finish
  generalize s.mgmt.queue.length = fuel
  induction fuel generalizing s with
  | zero => exact h
  | succ n ih =>
    unfold cxRun
    split
    · split
      · exact h
      · exact ih _ (takeCommand_feeds _ s h)
    · exact h

theorem acceptCommand_feeds (c : Command) (s : State) (h : FeedsInForm s) : FeedsInForm (acceptCommand c s) := by
  have restarted := h.of_steady (steady_restartTimer s)
  exact finish_feeds _ (keeps_ite (restarted.of_steady (steady_setMgmt _)) (restarted.of_steady (steady_report _ _ _)))

theorem clearPacket_feeds (s : State) (h : FeedsInForm s) : FeedsInForm (clearPacket s) := by
  refine (h.of_steady (steady_restartTimer s)).of_steady (steady_setMgmt _ ?_)
  unfold Management.cleared
  split <;> rfl

theorem managementPacket_feeds (f : Feed) (p : Packet) (s : State) (h : FeedsInForm s) :
    FeedsInForm (managementPacket f p s) := by
  have judged : ∀ s, FeedsInForm s → FeedsInForm (judgeManagement p s) := fun s h =>
    keeps_ite (keeps_ite (clearPacket_feeds s h) (acceptCommand_feeds _ s h)) (h.of_steady (steady_report _ _ s))
  have passed := passThrough_feeds f p s h
  exact keeps_ite (judged s h) (keeps_ite (judged _ passed) passed)

theorem takePacket_feeds (f : Feed) (line : Nat) (control : Bool) (p : Packet) (s : State) (h : FeedsInForm s) :
    FeedsInForm (takePacket f line control p s) := by
  unfold takePacket
  split
  · exact soundPacket_feeds f line p s h
  · exact keeps_ite (managementPacket_feeds f p s h) (passThrough_feeds f p s h)
  · exact keeps_ite (managementPacket_feeds f p s h) (passThrough_feeds f p s h)
  · exact stampPacket_feeds f p s h
  · exact passThrough_feeds f p s h
  · exact passThrough_feeds f p s h

theorem takeScanned_feeds (f : Feed) (line : Nat) (control : Bool) (x : Scanned) (s : State) (h : FeedsInForm s) :
    FeedsInForm (takeScanned f line control x s) := by
  refine keeps_ite h ?_
  cases x with
  | packet p => exact takePacket_feeds f line control p s h
  | truncated w => exact h.of_steady (Steady.of_frame (frame_truncatedPacket s f w))

theorem readLine_feeds (f : Feed) (line : Nat) (control : Bool) (items : List Scanned) (taken : Nat) (em : List Nat)
    (s : State) (h : FeedsInForm s) : FeedsInForm (readLine f line control items taken em s) := by
  have emitted : ∀ em : List Nat, ∀ s, FeedsInForm s → FeedsInForm (walk em (fun _ => emitOnce f) s) :=
    fun em s h => h.of_steady (Steady.walk (fun _ => steady_emitOnce f) em s)
  induction items generalizing taken em s with
  | nil => exact emitted em s h
  | cons x rest ih => exact ih _ _ _ (takeScanned_feeds f line control x _ (emitted _ s h))

theorem steady_countBuilt (f : Feed) (line : Nat) (s : State) : Steady s (countBuilt f line s) := Steady.setFmt s f rfl

theorem steady_sendLine (f : Feed) (picture blanking : List Word) (s : State) : Steady s (sendLine f picture blanking s) :=
  Steady.setFmt s f rfl

theorem steady_sendBuilt (f : Feed) (line : Nat) (r : LineRecord) (s : State) : Steady s (sendBuilt f line r s) := by
  unfold sendBuilt
  dsimp only
  exact ((steady_countBuilt f line s).trans (Steady.of_frame (frame_drainQueue _ f))).trans
    ((steady_sendLine f _ _ _).trans (Steady.of_frame (frame_pathCheckLine _ f line _)))

theorem steady_sendOutput (f : Feed) (line : Nat) (r : LineRecord) (s : State) : Steady s (sendOutput f line r s) :=
  Steady.ite (steady_sendBuilt f line r s) (steady_sendLine f _ _ s)

theorem openLine_feeds (f : Feed) (mark : Bool) (s : State) (h : FeedsInForm s) : FeedsInForm (openLine f mark s) := by
  unfold openLine
  dsimp only
  refine FeedsInForm.of_steady (h.setFr_of_eq (f := f) ?_) (Steady.setFmt _ f rfl)
  rfl

theorem takeLine_feeds (f : Feed) (r : LineRecord) (em : List Nat) (s : State) (h : FeedsInForm s) :
    FeedsInForm (takeLine f r em s) := by
  exact keeps_ite (h.of_steady (Steady.setFmt s f rfl))
    ((readLine_feeds f _ _ _ _ _ _ (openLine_feeds f _ s h)).of_steady (steady_sendOutput f _ r _))

theorem startUp_feeds (cause : StartCause) (s : State) : FeedsInForm (startUp cause s) := by
  have fr : ∀ g, (startUp cause s).fr.get g = Receiver.start := fun g => Table.get_fill _ g
  refine ⟨fun f => ⟨?_, ?_, phaseFits_zero ?_⟩, ?_⟩
  · rw [fr]
    exact ⟨rfl, rfl, Or.inl rfl, by decide, by decide, fun q => by simp [Receiver.start, QuadTrack.start]⟩
  · rw [fr]
    exact fun _ q => by simp [Receiver.start, QuadTrack.start]
  · simp [startUp, State.reset, Formatter.start]
  · rw [fr]
    decide

theorem event_feeds {g : State → State} (hg : ∀ s, FeedsInForm s → FeedsInForm (g s)) (s : State) (h : FeedsInForm s) :
    FeedsInForm (event g s) :=
  keeps_ite (finish_feeds _ (hg _ (keeps_ite (startUp_feeds _ s) (h.of_steady (steady_takeExpiry s))))) h

theorem manageRow_feeds (code tag : Byte) (args : List Word) (s : State) (h : FeedsInForm s) :
    FeedsInForm (manageRow code tag args s) :=
  event_feeds (fun _ h => keeps_ite h (keeps_ite (acceptCommand_feeds _ _ h) (h.of_steady (steady_report _ _ _)))) s h

theorem exec_feeds (c : Instr) (s t : State) (h : FeedsInForm s) (he : exec c s = .next t) : FeedsInForm t := by
  have pins : ∀ p, FeedsInForm (s.setPins p) := fun p => h.of_steady (Steady.of_frame (frame_setPins s p))
  cases c
  case powerApplied => injection he with he; subst he; exact startUp_feeds _ _
  case powerLoss => injection he with he; subst he; exact h.of_steady ⟨rfl, fun _ => rfl, rfl⟩
  case resetPinAssert => injection he with he; subst he; exact pins _
  case resetPinRelease => injection he with he; subst he; exact keeps_ite (startUp_feeds _ _) (pins _)
  case commandStartUp => injection he with he; subst he; exact keeps_ite (startUp_feeds _ _) h
  case lineRecord => injection he with he; subst he; exact event_feeds (fun _ h => keeps_ite h (takeLine_feeds _ _ _ _ h)) s h
  case frameBoundary => injection he with he; subst he; exact event_feeds (fun _ h => keeps_ite h (frameMark_feeds _ _ _ _ h)) s h
  case lineRecordGap => injection he with he; subst he; exact event_feeds (lineGap_feeds _ _) s h
  case setTick => injection he with he; subst he; exact event_feeds (fun s h => h.of_steady (steady_setTickEvent _ _ _ _ s)) s h
  case referencePulse => injection he with he; subst he; exact event_feeds (fun s h => h.of_steady (steady_pulseEvent _ _ _ s)) s h
  case referenceWaitTimeout =>
    injection he with he; subst he; exact event_feeds (fun s h => h.of_steady (steady_waitTimeoutEvent _ _ _ s)) s h
  case referenceLost =>
    injection he with he; subst he; exact event_feeds (fun s h => h.of_steady (Steady.of_frame (frame_referenceLostEvent s _))) s h
  case controlSilence => injection he with he; subst he; exact event_feeds (fun _ h => h) s h
  case storeWriteEnd => injection he with he; subst he; exact keeps_ite (h.of_steady ⟨rfl, fun _ => rfl, rfl⟩) h
  all_goals
    injection he with he
    subst he
    exact manageRow_feeds _ _ _ s h

/-- Settles O59: a step leaves the FRs and phases alone, or moves an FR from form to form, through a loss of lock or a disabling whose parts put it back in form. -/
theorem feedInvariant : Obligations.FeedInvariant := by
  unfold Obligations.FeedInvariant
  intro s t form next
  rw [← feedsInForm_iff] at form ⊢
  unfold step at next
  split at next
  · injection next with next
    exact next ▸ form
  · rename_i rest _
    exact exec_feeds _ { s with pending := rest } t (form.of_steady ⟨rfl, fun _ => rfl, rfl⟩) next

end Machine

end Sys2Proof
end

section
/-! PROOF. Every step keeps the executor, its queue and the commit engine in form (R96, R163, R164). Within a step the form is weaker: commands may wait behind an IDLE CX, and while the CX judges a command that command is in flight at neither the PC nor the CE. Both are counted: `judged` commands are being judged, and the queue holds at most `bound` commands behind the one in flight. -/

namespace Sys2Proof

namespace Machine

/-! ## Operations that only tell -/

/-- From s to t Management stays but for the notice that waits. -/
def OnlyTold (s t : State) : Prop := ∃ n, t.mgmt = { s.mgmt with notice := n }

theorem OnlyTold.of_eq {s t : State} (h : t.mgmt = s.mgmt) : OnlyTold s t := ⟨s.mgmt.notice, h⟩

theorem OnlyTold.refl (s : State) : OnlyTold s s := .of_eq rfl

theorem OnlyTold.trans {s t u : State} (h : OnlyTold s t) (k : OnlyTold t u) : OnlyTold s u := by
  obtain ⟨n, h⟩ := h
  obtain ⟨m, k⟩ := k
  exact ⟨m, by rw [k, h]⟩

theorem OnlyTold.of_frame {t : Touch} {s s' : State} (k : Frame t s s') (mgmt : t.mgmt = false := by rfl) : OnlyTold s s' :=
  .of_eq (k.mgmt mgmt)

theorem OnlyTold.ite {s a b : State} {c : Prop} [Decidable c] (ha : OnlyTold s a) (hb : OnlyTold s b) :
    OnlyTold s (if c then a else b) := keeps_ite ha hb

theorem OnlyTold.walk {α : Type} {f : α → State → State} (h : ∀ a s, OnlyTold s (f a s)) (l : List α) (s : State) :
    OnlyTold s (walk l f s) := keeps_walk (P := OnlyTold s) (fun a u hu => hu.trans (h a u)) l s (OnlyTold.refl s)

theorem told_report (reason : Reason) (src : FaultSource) (s : State) : OnlyTold s (report reason src s) :=
  ⟨_, report_mgmt reason src s⟩

theorem told_noticeForNewest (s : State) : OnlyTold s (noticeForNewest s) := (commandKeeps_noticeForNewest s).mgmt

theorem told_recentre (i : RecordNo) (s : State) : OnlyTold s (recentre i s) := told_report _ _ (s.setTpt _)

theorem told_writeEvent (r : RingNo) (sets : List SampleSet) (s : State) : OnlyTold s (writeEvent r sets s) :=
  (OnlyTold.of_frame (frame_setRing s r _)).trans
    (OnlyTold.walk (fun i s => OnlyTold.ite (told_recentre i s) (OnlyTold.refl s)) _ _)

theorem told_underruns (d : Domain) (s : State) : OnlyTold s (underruns d s) :=
  OnlyTold.walk (fun i s => OnlyTold.ite (told_recentre i s) (OnlyTold.refl s)) _ s

theorem told_compareChecked (d : Domain) (v : Dest → Int) (s : State) : OnlyTold s (compareChecked d v s) := by
  unfold compareChecked
  dsimp only
  split
  · exact OnlyTold.refl s
  · exact OnlyTold.ite (told_report _ _ (s.setRound d _)) (OnlyTold.refl s)

theorem told_emission (d : Domain) (s : State) : OnlyTold s (emission d s) := by
  unfold emission
  dsimp only
  exact ((((((told_underruns d s).trans (.of_frame (frame_chooseChecked _ d))).trans (told_compareChecked d _ _)).trans
    (.of_frame (frame_markClips _ d))).trans (.of_frame (frame_advanceTakes _ d))).trans
    (.of_frame (frame_advanceRamps _ d))).trans (.of_frame (frame_emitTo _ d _))

theorem told_judgeTrack (w : TrackNo) (s : State) : OnlyTold s (judgeTrack w s) :=
  OnlyTold.ite (told_report _ _ (s.setTracks _)) (.of_frame (frame_setTracks s _))

theorem told_judgeFeedTrack (f : Feed) (k : Fin 16) (s : State) : OnlyTold s (judgeFeedTrack f k s) :=
  OnlyTold.ite (told_judgeTrack _ s) (.of_frame (frame_clearPeak s _))

theorem told_handOverClips (d : Domain) (s : State) : OnlyTold s (handOverClips d s) :=
  (OnlyTold.walk (fun _ s => OnlyTold.ite (told_report _ _ s) (OnlyTold.refl s)) _ s).trans (.of_frame (frame_clearClips _ d))

theorem told_judgeCadence (f : Feed) (fm : Format) (q : Quad) (s : State) : OnlyTold s (judgeCadence f fm q s) :=
  OnlyTold.ite (told_report _ _ (s.setFr f _)) (.of_frame (frame_setFr s f _))

theorem told_checkSequence (f : Feed) (q : Quad) (c : BitVec 4) (s : State) : OnlyTold s (checkSequence f q c s) :=
  (OnlyTold.ite (told_report _ _ s) (OnlyTold.refl s)).trans (.of_frame (frame_changeQuad _ f q _))

theorem told_acceptSound (f : Feed) (q : Quad) (p : Packet) (s : State) : OnlyTold s (acceptSound f q p s) :=
  (OnlyTold.of_frame (frame_makePresent s f q)).trans ((told_writeEvent _ _ _).trans
    ((OnlyTold.of_frame (frame_offerSets _ _ _)).trans (.of_frame (frame_changeQuad _ f q _))))

theorem told_lockedSound (f : Feed) (line : Nat) (q : Quad) (p : Packet) (s : State) : OnlyTold s (lockedSound f line q p s) := by
  have claimed := OnlyTold.of_frame (frame_claim s f q)
  exact OnlyTold.ite (OnlyTold.ite (claimed.trans (told_report _ _ _))
    ((claimed.trans (told_checkSequence f q _ _)).trans (told_acceptSound f q p _)))
    ((OnlyTold.of_frame (frame_changeQuad s f q _)).trans (told_report _ _ _))

theorem told_soundPacket (f : Feed) (line : Nat) (p : Packet) (s : State) : OnlyTold s (soundPacket f line p s) := by
  unfold soundPacket
  dsimp only
  split
  · exact OnlyTold.refl s
  · exact (OnlyTold.of_frame (frame_remember s f _ p)).trans (OnlyTold.ite (told_lockedSound f line _ p _) (OnlyTold.refl _))

theorem told_truncatedPacket (f : Feed) (w : Option Word) (s : State) : OnlyTold s (truncatedPacket f w s) := by
  unfold truncatedPacket
  split
  · exact OnlyTold.refl s
  · exact OnlyTold.ite (told_report _ _ s) (OnlyTold.refl s)

theorem told_identify (f : Feed) (fm : Format) (s : State) : OnlyTold s (identify f fm s) := by
  have started : ∀ r, OnlyTold s (startDomain f (s.setFr f r)) := fun r =>
    (OnlyTold.of_frame (frame_setFr s f r)).trans (.of_frame (frame_startDomain _ f))
  exact OnlyTold.ite (OnlyTold.ite ((started _).trans (.of_frame (frame_enterLocked _ f))) (started _))
    ((started _).trans (told_report _ _ _))

theorem told_seekBoundary (f : Feed) (m : Option Format) (s : State) : OnlyTold s (seekBoundary f m s) := by
  unfold seekBoundary
  dsimp only
  split
  · exact .of_frame (frame_setFr s f _)
  · exact OnlyTold.ite (told_identify f _ s) (.of_frame (frame_setFr s f _))

theorem told_emitTick (s : State) : OnlyTold s (emitTick s) := (told_emission domain8 s).trans (.of_frame (frame_setRu _ _))

theorem told_referenceLostEvent (e : Time) (s : State) : OnlyTold s (referenceLostEvent e s) :=
  (OnlyTold.of_frame (frame_passTime s e)).trans
    (OnlyTold.ite ((OnlyTold.of_frame (frame_setRu _ _)).trans (told_report _ _ _)) (OnlyTold.refl _))

/-! ## Operations that leave the executor and its requests -/

/-- The request is a command's. -/
def Requester.isCommand (r : Requester) : Bool :=
  match r with
  | .command _ => true
  | .cue _ | .failsafe => false

/-- The requests with the CE: the one in flight, then the waiting order (R96). -/
def requests (e : Engine) : List Requester := (e.inFlight.toList.map fun c => c.requester) ++ e.waiting

theorem commandsInFlight_eq (s : State) : s.commandsInFlight =
    (if s.pc.state = .idle then 0 else 1) + (requests s.ce).countP Requester.isCommand := rfl

/-- From s to t the executor, the state of the PC and the requests with the CE stay. -/
structure Unmoved (s t : State) : Prop where
  queue : t.mgmt.queue = s.mgmt.queue
  cx : t.mgmt.cx = s.mgmt.cx
  discard : t.mgmt.discard = s.mgmt.discard
  answers : t.mgmt.answers = s.mgmt.answers
  pc : t.pc.state = s.pc.state
  requester : t.ce.inFlight.map InFlight.requester = s.ce.inFlight.map InFlight.requester
  waiting : t.ce.waiting = s.ce.waiting

theorem Unmoved.refl (s : State) : Unmoved s s := ⟨rfl, rfl, rfl, rfl, rfl, rfl, rfl⟩

theorem Unmoved.trans {s t u : State} (h : Unmoved s t) (k : Unmoved t u) : Unmoved s u :=
  ⟨k.queue.trans h.queue, k.cx.trans h.cx, k.discard.trans h.discard, k.answers.trans h.answers, k.pc.trans h.pc,
    k.requester.trans h.requester, k.waiting.trans h.waiting⟩

theorem Unmoved.of_told {t : Touch} {s s' : State} (k : Frame t s s') (told : OnlyTold s s') (pc : t.pc = false := by rfl)
    (ce : t.ce = false := by rfl) : Unmoved s s' := by
  obtain ⟨n, told⟩ := told
  exact ⟨by rw [told], by rw [told], by rw [told], by rw [told], by rw [k.pc pc], by rw [k.ce ce], by rw [k.ce ce]⟩

theorem Unmoved.of_frame {t : Touch} {s s' : State} (k : Frame t s s') (mgmt : t.mgmt = false := by rfl)
    (pc : t.pc = false := by rfl) (ce : t.ce = false := by rfl) : Unmoved s s' := .of_told k (.of_frame k mgmt) pc ce

theorem unmoved_report (reason : Reason) (src : FaultSource) (s : State) : Unmoved s (report reason src s) :=
  .of_told (frame_report s reason src) (told_report reason src s)

theorem unmoved_setPc {s : State} {p : PathChecker} (h : p.state = s.pc.state) : Unmoved s (s.setPc p) :=
  ⟨rfl, rfl, rfl, rfl, h, rfl, rfl⟩

/-- An update of Management that leaves the executor and the AQ's answers. -/
theorem unmoved_setMgmt {s : State} {m : Management} (h : (m.queue, m.cx, m.discard, m.answers) =
    (s.mgmt.queue, s.mgmt.cx, s.mgmt.discard, s.mgmt.answers)) : Unmoved s (s.setMgmt m) := by
  simp only [Prod.mk.injEq] at h
  obtain ⟨queue, cx, discard, answers⟩ := h
  exact ⟨queue, cx, discard, answers, rfl, rfl, rfl⟩

theorem unmoved_switchDomain (d : Domain) (running : Bool) (s : State) : Unmoved s (switchDomain d running s) := by
  unfold switchDomain
  split
  · exact Unmoved.refl s
  · rename_i c inFlight
    split
    · exact Unmoved.refl s
    · have switched := Unmoved.of_frame (frame_switchTo s d running c.snapshot)
      exact ⟨switched.queue, switched.cx, switched.discard, switched.answers, switched.pc, by rw [inFlight]; rfl,
        switched.waiting⟩

/-- The order of the requests: nothing waits for an IDLE CE, and at most one failsafe request waits (R96). -/
structure InOrder (e : Engine) : Prop where
  idle : e.inFlight = none → e.waiting = []
  once : e.waiting.count .failsafe ≤ 1

theorem orderFits_iff (e : Engine) : e.orderFits = true ↔ InOrder e := by
  unfold Engine.orderFits
  rw [Bool.and_eq_true, Bool.or_eq_true, decide_eq_true_iff, List.isEmpty_iff]
  constructor
  · exact fun ⟨idle, once⟩ => ⟨fun none => idle.resolve_left (by rw [none]; simp), once⟩
  · rintro ⟨idle, once⟩
    refine ⟨?_, once⟩
    cases inFlight : e.inFlight with
    | none => exact Or.inr (idle inFlight)
    | some c => exact Or.inl rfl

theorem InOrder.of_unmoved {s t : State} (h : InOrder s.ce) (k : Unmoved s t) : InOrder t.ce where
  idle none := by
    have requester := k.requester
    rw [none, Option.map_none, eq_comm, Option.map_eq_none_iff] at requester
    rw [k.waiting]
    exact h.idle requester
  once := k.waiting ▸ h.once

/-! ## The form within a step -/

/-- The executor in form within a step: `judged` commands are being judged, and the queue holds at most `bound` commands but for the one in flight. -/
structure Executes (judged bound : Nat) (s : State) : Prop where
  held : s.mgmt.queue.length + s.mgmt.answers.length ≤ 32
  busy : s.mgmt.cx ≠ .idle → s.mgmt.queue ≠ []
  idle : s.mgmt.cx = .idle → s.mgmt.discard = false
  flight : s.commandsInFlight + judged = if s.mgmt.cx = .executing then 1 else 0
  short : s.mgmt.queue.length ≤ bound + if s.mgmt.cx = .idle then 0 else 1

/-- The executor and the requests in form within a step. -/
structure Fits (judged bound : Nat) (s : State) : Prop where
  executes : Executes judged bound s
  order : InOrder s.ce

theorem requests_of_unmoved {s t : State} (k : Unmoved s t) : requests t.ce = requests s.ce := by
  have same : ∀ o : Option InFlight, (o.toList.map fun c => c.requester) = (o.map InFlight.requester).toList := fun o => by
    cases o <;> rfl
  rw [requests, requests, same, same, k.requester, k.waiting]

theorem commandsInFlight_of_unmoved {s t : State} (k : Unmoved s t) : t.commandsInFlight = s.commandsInFlight := by
  rw [commandsInFlight_eq, commandsInFlight_eq, k.pc, requests_of_unmoved k]

section
variable {judged bound : Nat} {s t : State}

theorem Executes.of_unmoved (h : Executes judged bound s) (k : Unmoved s t) : Executes judged bound t where
  held := by
    rw [k.queue, k.answers]
    exact h.held
  busy := by
    rw [k.queue, k.cx]
    exact h.busy
  idle := by
    rw [k.cx, k.discard]
    exact h.idle
  flight := by
    rw [commandsInFlight_of_unmoved k, k.cx]
    exact h.flight
  short := by
    rw [k.queue, k.cx]
    exact h.short

theorem Fits.of_unmoved (h : Fits judged bound s) (k : Unmoved s t) : Fits judged bound t :=
  ⟨h.executes.of_unmoved k, h.order.of_unmoved k⟩

/-- A command moves into judgment, or out of it, with Management as it stands. -/
theorem Executes.of_count {k : Nat} (h : Executes judged bound s) (mgmt : t.mgmt = s.mgmt)
    (count : t.commandsInFlight + k = s.commandsInFlight + judged) : Executes k bound t where
  held := mgmt ▸ h.held
  busy := mgmt ▸ h.busy
  idle := mgmt ▸ h.idle
  flight := by
    rw [count, mgmt]
    exact h.flight
  short := mgmt ▸ h.short

theorem Executes.executing (h : Executes judged bound s) (some : judged ≠ 0) :
    s.mgmt.cx = .executing ∧ judged = 1 ∧ s.commandsInFlight = 0 := by
  have flight := h.flight
  split at flight
  · rename_i executing
    exact ⟨executing, by omega, by omega⟩
  · omega

/-- The command in judgment is answered: none is in judgment then, and the CX is IDLE (R164, R165). -/
theorem Executes.answered (h : Executes (judged + 1) bound s) (v : Verdict) (words : List Word) :
    Executes judged bound (answerCommand v words s) := by
  obtain ⟨executing, one, none⟩ := h.executing (by omega)
  obtain rfl : judged = 0 := by omega
  have held := h.held
  have short := h.short
  have flight : (answerCommand v words s).commandsInFlight = 0 := none
  unfold answerCommand completedManagement at flight ⊢
  cases queue : s.mgmt.queue with
  | nil => exact absurd queue (h.busy (by rw [executing]; decide))
  | cons c rest =>
    rw [queue, List.length_cons] at held
    rw [queue, List.length_cons, executing] at short
    simp only [queue] at flight ⊢
    cases discard : s.mgmt.discard with
    | true =>
      simp only [discard, if_true] at flight ⊢
      refine ⟨?_, fun busy => absurd rfl busy, fun _ => rfl, flight, ?_⟩
      · simp only [State.setMgmt_fields]
        omega
      · simpa using short
    | false =>
      simp only [discard, Bool.false_eq_true, if_false] at flight ⊢
      refine ⟨?_, fun busy => absurd rfl busy, fun _ => ?_, flight, ?_⟩
      · simp only [State.setMgmt_fields, List.length_append, List.length_singleton]
        omega
      · simp
      · simpa using short

theorem Fits.answered (h : Fits (judged + 1) bound s) (v : Verdict) (words : List Word) :
    Fits judged bound (answerCommand v words s) := ⟨h.executes.answered v words, h.order⟩

/-! ## The commit engine -/

/-- What a request weighs in the count of commands in flight. -/
def Requester.weight (r : Requester) : Nat := if r.isCommand then 1 else 0

theorem commandsInFlight_setCe (s : State) (e : Engine) : (s.setCe e).commandsInFlight =
    (if s.pc.state = .idle then 0 else 1) + (requests e).countP Requester.isCommand := rfl

theorem countP_cons_isCommand (r : Requester) (l : List Requester) :
    (r :: l).countP Requester.isCommand = l.countP Requester.isCommand + r.weight := List.countP_cons

theorem requests_of_none {e : Engine} (h : e.inFlight = none) : requests e = e.waiting := by
  rw [requests, h]
  rfl

theorem requests_of_some {e : Engine} {c : InFlight} (h : e.inFlight = some c) : requests e = c.requester :: e.waiting := by
  rw [requests, h]
  rfl

/-- A refused request is ended, and its command answered. -/
theorem Executes.refused {r : Requester} (h : Executes (judged + r.weight) bound s) (result : CommitResult) (v : Verdict)
    (o : CueOutcome) (words : List Word) : Executes judged bound (refuseCommit r result v o words s) := by
  have kept : Unmoved s (s.setCe { s.ce with lastSource := some r, lastResult := result }) := ⟨rfl, rfl, rfl, rfl, rfl, rfl, rfl⟩
  have h := h.of_unmoved kept
  unfold refuseCommit
  cases r with
  | command b => exact h.answered v _
  | cue c => exact (h.of_unmoved (.of_frame (frame_setCue _ c _))).of_unmoved (unmoved_report _ _ _)
  | failsafe => exact h.of_unmoved (unmoved_report _ _ _)

theorem unmoved_switchIfStopped (s : State) : Unmoved s (walk (List.finRange 8) switchIfStopped s) :=
  keeps_walk (P := Unmoved s) (fun _ _ k => keeps_ite k (k.trans (unmoved_switchDomain _ _ _))) _ s (Unmoved.refl s)

/-- An accepted request is in flight. -/
theorem Executes.accepted {r : Requester} (h : Executes (judged + r.weight) bound s) (none : s.ce.inFlight = none) (p : Bank) :
    Executes judged bound (acceptCommit r p s) := by
  have flies : Executes judged bound ((s.setTpt (reserveFor p s.tpt)).setCe { s.ce with inFlight := some (newInFlight r p s) }) := by
    refine h.of_count rfl ?_
    have requester : (newInFlight r p s).requester = r := rfl
    rw [commandsInFlight_setCe, commandsInFlight_eq, requests_of_none none, requests_of_some rfl, countP_cons_isCommand,
      requester]
    simp only [State.setTpt_fields]
    omega
  unfold acceptCommit
  dsimp only
  exact flies.of_unmoved (unmoved_switchIfStopped _)

theorem Executes.validated {r : Requester} (h : Executes (judged + r.weight) bound s) (none : s.ce.inFlight = none) :
    Executes judged bound (validate r s) :=
  keeps_ite (h.refused _ _ _ _) (keeps_ite (h.refused _ _ _ _) (h.accepted none _))

theorem validate_waiting (r : Requester) (s : State) : (validate r s).ce.waiting = s.ce.waiting := by
  have refused : ∀ result v o words, (refuseCommit r result v o words s).ce.waiting = s.ce.waiting := fun result v o words => by
    unfold refuseCommit
    cases r with
    | command b => rfl
    | cue c => rw [(frame_report _ _ _).ce rfl]; rfl
    | failsafe => rw [(frame_report _ _ _).ce rfl]; rfl
  refine keeps_ite (P := fun t => t.ce.waiting = s.ce.waiting) (refused _ _ _ _)
    (keeps_ite (P := fun t => t.ce.waiting = s.ce.waiting) (refused _ _ _ _) ?_)
  unfold acceptCommit
  dsimp only
  rw [(unmoved_switchIfStopped _).waiting]
  rfl

theorem leaveOrder_unmoved (r : Requester) (s : State) : Unmoved s (leaveOrder r s) := .of_frame (frame_leaveOrder s r)

/-- The waiting order is taken by an IDLE CE: what is left of it waits behind the request that is accepted. -/
theorem takeWaiting_fits (order : List Requester) (h : Executes judged bound s) (none : s.ce.inFlight = none)
    (waiting : s.ce.waiting = order) (once : order.count .failsafe ≤ 1) : Fits judged bound (takeWaiting order s) := by
  induction order generalizing s with
  | nil => exact ⟨h, fun _ => waiting, (congrArg (List.count Requester.failsafe) waiting).trans_le once⟩
  | cons r rest ih =>
    have left := leaveOrder_unmoved r (s.setCe { s.ce with waiting := rest })
    have shorter : Executes (judged + r.weight) bound (s.setCe { s.ce with waiting := rest }) := by
      refine h.of_count rfl ?_
      rw [commandsInFlight_setCe, commandsInFlight_eq, requests_of_none none, waiting, requests_of_none (by exact none),
        countP_cons_isCommand]
      dsimp only
      omega
    have taken := shorter.of_unmoved left
    have idle : (leaveOrder r (s.setCe { s.ce with waiting := rest })).ce.inFlight = .none := by
      rw [(frame_leaveOrder _ r).ce rfl]
      exact none
    have behind := (validate_waiting r _).trans left.waiting
    have validated := taken.validated idle
    have restOnce : rest.count .failsafe ≤ 1 := ((List.sublist_cons_self r rest).count_le _).trans once
    unfold takeWaiting
    dsimp only
    generalize validate r (leaveOrder r (s.setCe { s.ce with waiting := rest })) = u at *
    split
    · rename_i accepted
      exact ⟨validated, fun none => absurd none (Option.isSome_iff_ne_none.1 accepted), by rw [behind]; exact restOnce⟩
    · rename_i refused
      exact ih validated (Option.not_isSome_iff_eq_none.1 refused) behind restOnce

/-- A request is made: its command leaves judgment. -/
theorem Fits.requested {r : Requester} (h : Fits (judged + r.weight) bound s) : Fits judged bound (requestCommit r s) := by
  unfold requestCommit
  split
  · rename_i idle
    have none := Option.isNone_iff_eq_none.1 idle
    have waiting := (validate_waiting r s).trans (h.order.idle none)
    exact ⟨h.executes.validated none, fun _ => waiting, by rw [waiting]; decide⟩
  · rename_i busy
    obtain ⟨c, inFlight⟩ := Option.ne_none_iff_exists'.1 fun none => busy (Option.isNone_iff_eq_none.2 none)
    split
    · rename_i waits
      obtain ⟨rfl, -⟩ := waits
      exact h
    · rename_i absent
      refine ⟨h.executes.of_count rfl ?_, fun none => absurd (inFlight.symm.trans none) (by simp), ?_⟩
      · rw [commandsInFlight_setCe, commandsInFlight_eq, requests_of_some inFlight, requests_of_some (c := c) (by exact inFlight),
          countP_cons_isCommand, countP_cons_isCommand, List.countP_append, countP_cons_isCommand, List.countP_nil]
        omega
      · simp only [State.setCe_fields, List.count_append, List.count_singleton, beq_iff_eq]
        split
        · rename_i failsafe
          rw [List.count_eq_zero.2 fun waits => absent ⟨failsafe, failsafe ▸ waits⟩]
        · exact h.order.once

/-- The request in flight is ended, and its command answered. -/
theorem Executes.ended {c : InFlight} (h : Executes (judged + c.requester.weight) bound s) :
    Executes judged bound (endCommit c s) := by
  unfold endCommit
  cases requester : c.requester with
  | command b =>
    rw [requester] at h
    exact h.answered _ _
  | cue i =>
    rw [requester] at h
    have recorded := h.of_unmoved (.of_frame (frame_setCue s i { s.cues.get i with outcome := cueCompletion c }))
    exact keeps_ite recorded (recorded.of_unmoved (unmoved_report _ _ _))
  | failsafe =>
    rw [requester] at h
    exact h

/-- A commit that has switched all domains completes, and the CE takes the waiting order. -/
theorem Fits.completed {c : InFlight} (h : Fits judged bound s) (inFlight : s.ce.inFlight = some c) :
    Fits judged bound (completeCommit c s) := by
  unfold completeCommit
  dsimp only
  have taken : Executes (judged + c.requester.weight) bound ((s.setTpt (unreserve s.tpt)).setCe { s.ce with
      inFlight := none, commitCount := s.ce.commitCount + 1, lastSource := some c.requester, lastResult := .done }) := by
    refine h.executes.of_count rfl ?_
    rw [commandsInFlight_setCe, commandsInFlight_eq, requests_of_some inFlight, requests_of_none rfl, countP_cons_isCommand]
    simp only [State.setTpt_fields]
    omega
  have ended := taken.ended
  have kept := (frame_endCommit ((s.setTpt (unreserve s.tpt)).setCe { s.ce with
    inFlight := none, commitCount := s.ce.commitCount + 1, lastSource := some c.requester, lastResult := .done }) c).ce rfl
  refine takeWaiting_fits _ ended (by rw [kept]; rfl) rfl ?_
  rw [kept]
  exact h.order.once

theorem Fits.switchAt (h : Fits judged bound s) (d : Domain) (running : Bool) : Fits judged bound (switchAt d running s) := by
  have switched := h.of_unmoved (unmoved_switchDomain d running s)
  unfold Machine.switchAt completeIfSwitched
  split
  · exact switched
  · rename_i c inFlight
    exact keeps_ite (switched.completed inFlight) switched

theorem Fits.fireCue (h : Fits judged bound s) (c : CueNo) (late : Nat) : Fits judged bound (fireCue c late s) :=
  keeps_ite (Fits.requested (r := .cue c) (h.of_unmoved (.of_frame (frame_setCue s c _))))
    (Fits.requested (r := .cue c) (h.of_unmoved (.of_frame (frame_setCue s c _))))

theorem Fits.takeStamp (h : Fits judged bound s) (f : Feed) (rate : Nat) (t : Stamp) :
    Fits judged bound (takeStamp f rate t s) :=
  keeps_walk (fun _ _ h => keeps_ite (h.fireCue _ _) h) _ s h

theorem Fits.takeExpiry (h : Fits judged bound s) : Fits judged bound (takeExpiry s) := by
  refine keeps_ite ?_ h
  have stopped : Fits judged bound (s.setMgmt { s.mgmt with timerRunning := false, remaining := 0 }) :=
    h.of_unmoved (unmoved_setMgmt rfl)
  have told := stopped.of_unmoved (unmoved_report .controlSilence (managementSource s) _)
  unfold expireSilence
  dsimp only
  split
  · exact told
  · exact Fits.requested (r := .failsafe) told

theorem Fits.restartTimer (h : Fits judged bound s) : Fits judged bound (restartTimer s) := by
  unfold Machine.restartTimer
  dsimp only
  split <;> exact h.takeExpiry.of_unmoved (unmoved_setMgmt rfl)

/-! ## The path check -/

theorem commandsInFlight_setPc (s : State) (p : PathChecker) : (s.setPc p).commandsInFlight =
    (if p.state = .idle then 0 else 1) + (requests s.ce).countP Requester.isCommand := rfl

/-- A path check that ends takes its command into judgment. -/
theorem Fits.checkEnds (h : Fits judged bound s) (busy : s.pc.state ≠ .idle) {p : PathChecker} (idle : p.state = .idle) :
    Fits (judged + 1) bound (s.setPc p) := by
  refine ⟨h.executes.of_count rfl ?_, h.order⟩
  rw [commandsInFlight_setPc, commandsInFlight_eq, if_pos idle, if_neg busy]
  omega

theorem Fits.abortPathCheck (h : Fits judged bound s) (busy : s.pc.state ≠ .idle) : Fits judged bound (abortPathCheck s) :=
  (h.checkEnds busy rfl).answered _ _

theorem Fits.pathCheckStop (h : Fits judged bound s) (f : Feed) : Fits judged bound (pathCheckStop f s) := by
  unfold Machine.pathCheckStop
  split
  · rename_i stops
    exact h.abortPathCheck stops.1
  · exact h

theorem Fits.pathCheckBoundary (h : Fits judged bound s) (f : Feed) : Fits judged bound (pathCheckBoundary f s) := by
  unfold Machine.pathCheckBoundary
  refine keeps_ite ?_ h
  cases state : s.pc.state with
  | idle => exact h
  | waiting =>
    refine ⟨h.executes.of_count rfl ?_, h.order⟩
    rw [commandsInFlight_setPc, commandsInFlight_eq, state, if_neg (by simp), if_neg (by simp)]
  | checking => exact (h.checkEnds (by rw [state]; simp) rfl).answered _ _

theorem Fits.pathCheckLine (h : Fits judged bound s) (f : Feed) (line : Nat) (slots : Table 4 (Option Packet)) :
    Fits judged bound (pathCheckLine f line slots s) := by
  unfold Machine.pathCheckLine
  split
  · rename_i checks
    have marked : Unmoved s (if s.pc.marked then s else markQuads f s) := keeps_ite (Unmoved.refl s) (unmoved_setPc rfl)
    refine keeps_ite (h.of_unmoved (unmoved_setPc rfl)) ?_
    dsimp only
    generalize (if s.pc.marked then s else markQuads f s) = u at *
    have h := h.of_unmoved marked
    refine keeps_ite ?_ (h.abortPathCheck (by rw [marked.pc, checks.1]; simp))
    split
    · exact keeps_ite (h.of_unmoved (unmoved_setPc rfl)) h
    · exact h
  · exact h

/-! ## Feeds and frames -/

theorem Fits.stopDomain (h : Fits judged bound s) (f : Feed) : Fits judged bound (stopDomain f s) := by
  unfold Machine.stopDomain
  dsimp only
  exact (((((h.of_unmoved (.of_frame (frame_setFmt s f _))).of_unmoved (.of_frame (frame_endRamps _ _))).of_unmoved
    (.of_frame (frame_clearClips _ _))).of_unmoved (.of_frame (frame_stopRound _ _))).switchAt _ false).pathCheckStop f

theorem Fits.boundaryPart (h : Fits judged bound s) (f : Feed) (fm : Format) (p : Part) :
    Fits judged bound (boundaryPart f fm p s) := by
  cases p <;> dsimp only [Machine.boundaryPart]
  case takePoints => exact h.of_unmoved (.of_frame (frame_judgeTakePoints s _))
  case switch => exact h.switchAt _ true
  case clips => exact h.of_unmoved (.of_told (frame_handOverClips s _) (told_handOverClips _ s))
  case presence k => exact h.of_unmoved (.of_told (frame_judgeFeedTrack s f k) (told_judgeFeedTrack f k s))
  case absence q => exact h.of_unmoved (.of_frame (frame_closeQuadFrame s f q))
  case cadence q => exact h.of_unmoved (.of_told (frame_judgeCadence s f fm q) (told_judgeCadence f fm q s))
  case dueCount => exact h.of_unmoved (.of_frame (frame_countDue s f))
  case pathCheck => exact h.pathCheckBoundary f
  case settle => exact h.of_unmoved (.of_frame (frame_settleStep s f))
  case leaveLocked => exact h.of_unmoved (.of_frame (frame_leaveLocked s f))
  case stop => exact h.stopDomain f
  all_goals exact h

theorem Fits.runParts (h : Fits judged bound s) (f : Feed) (fm : Format) (order parts : List Part) :
    Fits judged bound (runParts f fm order parts s) := keeps_walk (fun p _ h => h.boundaryPart f fm p) _ s h

theorem Fits.loseLock (h : Fits judged bound s) (f : Feed) (fm : Format) (c : Option Format) (order extra : List Part) :
    Fits judged bound (loseLock f fm c order extra s) :=
  Fits.runParts ((h.of_unmoved (.of_frame (frame_setFr s f _))).of_unmoved (unmoved_report _ _ _)) f fm order _

theorem Fits.frameMark (h : Fits judged bound s) (f : Feed) (period : Time) (order : List Part) :
    Fits judged bound (frameMark f period order s) := by
  have counted : ∀ r, Fits judged bound (s.setFr f r) := fun r => h.of_unmoved (.of_frame (frame_setFr s f r))
  have closed : ∀ m s, Fits judged bound s → Fits judged bound (closeFrame f m order s) := fun m s h => by
    unfold closeFrame
    dsimp only
    refine keeps_ite ?_ ((h.of_unmoved (.of_told (frame_seekBoundary s f m) (told_seekBoundary f m s))).of_unmoved
      (.of_frame (frame_countDue _ f)))
    split
    · exact h
    · exact keeps_ite ((h.of_unmoved (.of_frame (frame_openFrame s f _))).runParts f _ order _) (h.loseLock f _ m order _)
  exact keeps_ite h (keeps_ite (closed _ _ (counted _)) (counted _))

theorem Fits.lineGap (h : Fits judged bound s) (f : Feed) (order : List Part) : Fits judged bound (lineGap f order s) := by
  unfold Machine.lineGap
  dsimp only
  refine keeps_ite ?_ h
  split
  · exact h
  · exact h.loseLock f _ none order _

theorem Fits.setFeedTo (h : Fits judged bound s) (f : Feed) (enable : Bool) (expected : Option Format) (settle : Nat) :
    Fits judged bound (setFeedTo f enable expected settle s) := by
  unfold Machine.setFeedTo
  dsimp only
  have stored := h.of_unmoved (.of_frame (frame_setFr s f { s.fr.get f with
    enabled := enable, expected := expected, settleFrames := settle }))
  generalize s.setFr f { s.fr.get f with enabled := enable, expected := expected, settleFrames := settle } = u at *
  have set : ∀ r, Fits judged bound (u.setFr f r) := fun r => stored.of_unmoved (.of_frame (frame_setFr u f r))
  have wrong : Fits judged bound (toWrongFormat f u) := (set _).of_unmoved (unmoved_report _ _ _)
  refine keeps_ite ?_ ?_
  · unfold enableFeed
    dsimp only
    split
    · exact set _
    · exact stored
    · exact keeps_ite (set _) wrong
    · exact keeps_ite stored (wrong.of_unmoved (.of_frame (frame_leaveLocked _ f)))
    · exact keeps_ite (set _) stored
  · unfold disableFeed
    dsimp only
    split
    · exact stored
    · exact set _
    · exact (set _).stopDomain f
    · exact (set _).stopDomain f
    · exact ((set _).of_unmoved (.of_frame (frame_leaveLocked _ f))).stopDomain f

/-! ## The reference -/

theorem Fits.instantPart (h : Fits judged bound s) (carried : Bool) (lines : LineSet) (p : Part) :
    Fits judged bound (instantPart carried lines p s) := by
  cases p <;> dsimp only [Machine.instantPart]
  case emission =>
    have emitted := h.of_unmoved (.of_told (frame_emission s domain8) (told_emission domain8 s))
    exact emitted.of_unmoved (.of_frame (frame_setRu (emission domain8 s) _))
  case lineWrite n => exact h.of_unmoved (.of_told (frame_writeLineRing s lines n) (told_writeEvent _ _ s))
  case lineOffer l => exact h.of_unmoved (.of_frame (frame_offerLine s lines l))
  case takePoints => exact h.of_unmoved (.of_frame (frame_judgeTakePoints s _))
  case switch => exact h.switchAt _ true
  case clips => exact h.of_unmoved (.of_told (frame_handOverClips s _) (told_handOverClips _ s))
  case presence l => exact keeps_ite (h.of_unmoved (.of_told (frame_judgeTrack s _) (told_judgeTrack _ s))) h
  case silence => exact keeps_ite (h.of_unmoved (unmoved_setMgmt rfl)) h
  all_goals exact h

theorem Fits.takeParts (h : Fits judged bound s) (ticks : List LineSet) (carried : Bool) (taken parts : List Part) :
    Fits judged bound (takeParts ticks carried taken parts s) := by
  induction parts generalizing s taken with
  | nil => exact h
  | cons p rest ih => exact ih (h.instantPart _ _ p) _

theorem Fits.runTicks (h : Fits judged bound s) (ticks : List LineSet) (order frameOrder : List Part) :
    Fits judged bound (runTicks ticks order frameOrder s) :=
  Fits.takeParts (h.of_unmoved (.of_frame (frame_setLineIn s _))) _ _ _ _

theorem Fits.endingTicks (h : Fits judged bound s) (realign : Bool) (ticks : List LineSet) (order frameOrder : List Part) :
    Fits judged bound (endingTicks realign ticks order frameOrder s) :=
  Fits.takeParts ((h.runTicks _ _ _).of_unmoved (.of_frame (frame_turnFrame8 _ _))) _ _ _ _

theorem Fits.setTickEvent (h : Fits judged bound s) (e : Time) (lines : LineSet) (order frameOrder : List Part) :
    Fits judged bound (setTickEvent e lines order frameOrder s) := by
  have passed := h.of_unmoved (.of_frame (frame_passTime s e))
  have ended := keeps_ite (c := frameTicks (passTime e s).ru ≤ (passTime e s).ru.ticks)
    (passed.endingTicks false [] [] frameOrder) passed
  exact keeps_ite passed (keeps_ite (ended.endingTicks _ _ _ _) ((ended.runTicks _ _ _).takeParts _ _ _ _))

theorem Fits.pulseEvent (h : Fits judged bound s) (e : Time) (owed : OwedTicks) (frameOrder : List Part) :
    Fits judged bound (pulseEvent e owed frameOrder s) := by
  have passed := h.of_unmoved (.of_frame (frame_passTime s e))
  have set : ∀ s r, Fits judged bound s → Fits judged bound (s.setRu r) := fun s r h => h.of_unmoved (.of_frame (frame_setRu s r))
  unfold Machine.pulseEvent
  dsimp only
  split
  · exact set _ _ (((set _ _ passed).endingTicks _ _ _ _).of_unmoved (unmoved_report _ _ _))
  · exact keeps_ite (set _ _ (passed.endingTicks _ _ _ _)) (set _ _ passed)

theorem Fits.waitTimeoutEvent (h : Fits judged bound s) (e : Time) (owed : OwedTicks) (frameOrder : List Part) :
    Fits judged bound (waitTimeoutEvent e owed frameOrder s) := by
  have passed := h.of_unmoved (.of_frame (frame_passTime s e))
  exact keeps_ite (passed.endingTicks _ _ _ _) passed

/-! ## Taking commands -/

/-- What a command of a plain row leaves: at most a cue's request is withdrawn. -/
theorem Fits.of_commandKeeps (h : Fits judged bound s) (k : CommandKeeps s t) : Fits judged bound t := by
  obtain ⟨-, -, pc, -, ⟨n, mgmt⟩, ce⟩ := k
  rcases ce with ce | ⟨c, ce⟩
  · exact h.of_unmoved ⟨by rw [mgmt], by rw [mgmt], by rw [mgmt], by rw [mgmt], by rw [pc], by rw [ce], by rw [ce]⟩
  · have told : Fits judged bound (s.setMgmt { s.mgmt with notice := n }) := h.of_unmoved (unmoved_setMgmt rfl)
    refine ⟨told.executes.of_count mgmt ?_, ?_⟩
    · have same : (requests t.ce).countP Requester.isCommand = (requests s.ce).countP Requester.isCommand := by
        rw [ce, requests, requests, List.countP_append, List.countP_append, List.countP_filter]
        congr 1
        refine List.countP_congr fun r _ => ?_
        cases r <;> simp [Requester.isCommand]
      rw [commandsInFlight_eq, commandsInFlight_eq, pc, same]
      rfl
    · rw [ce]
      exact ⟨fun none => by rw [h.order.idle none]; rfl, (List.filter_sublist.count_le _).trans h.order.once⟩

theorem Fits.executed (h : Fits 1 bound s) (r : CommandRow) (args : List Word) : Fits 0 bound (act r args s).run := by
  have answered : ∀ {u v words}, Fits 1 bound u → Fits 0 bound (Act.answered v words u).run := fun h => h.answered _ _
  by_cases plain : r.plain
  · obtain ⟨v, words, u, e, keeps⟩ := act_answersFrom plain args s
    rw [e]
    exact answered (h.of_commandKeeps keeps)
  · cases r
    case setFeed =>
      dsimp only [act]
      unfold actSetFeed
      split
      · split
        · split
          · exact answered h
          · exact answered (h.setFeedTo _ _ _ _)
        · exact answered h
      · exact answered h
    case setControl =>
      dsimp only [act]
      unfold actSetControl
      split
      · split
        · rename_i control answer time action _ _ _ _
          split
          · exact answered h
          · have set : Fits 1 bound ((Machine.takeExpiry s).setMgmt { (Machine.takeExpiry s).mgmt with
                controlFeed := control, answerFeed := answer, silenceTime := time, silenceAction := action }) :=
              h.takeExpiry.of_unmoved (unmoved_setMgmt rfl)
            exact answered set.restartTimer
        · exact answered h
      · exact answered h
    case commit =>
      dsimp only [act]
      unfold actCommit
      split
      · split
        · exact Fits.requested (r := .command _) h
        · exact answered h
      · exact answered h
    case startPathCheck =>
      obtain ⟨-, -, none⟩ := h.executes.executing (by decide)
      have idle : s.pc.state = .idle := by
        by_contra busy
        rw [commandsInFlight_eq, if_neg busy] at none
        omega
      dsimp only [act]
      unfold actStartPathCheck
      split
      · split
        · dsimp only
          split
          · refine ⟨h.executes.of_count rfl ?_, h.order⟩
            rw [Act.run, commandsInFlight_setPc, commandsInFlight_eq, idle, if_neg (by simp), if_pos rfl]
            omega
          · exact answered (h.of_unmoved (unmoved_setPc idle.symm))
        · exact answered h
      · exact answered h
    case resetDevice =>
      obtain ⟨executing, -, none⟩ := h.executes.executing (by decide)
      dsimp only [act]
      unfold actResetDevice
      split
      · have short := h.executes.short
        rw [executing] at short
        exact ⟨{
          held := h.executes.held
          busy := fun _ => h.executes.busy (by rw [executing]; decide)
          idle := fun idle => by cases idle
          flight := none
          short := short }, h.order⟩
      · exact answered h
    all_goals exact absurd (by simp [CommandRow.plain]) plain

theorem Fits.takeCommand {c : Command} {rest : List Command} (h : Fits 0 bound s) (idle : s.mgmt.cx = .idle)
    (queue : s.mgmt.queue = c :: rest) : Fits 0 rest.length (takeCommand c s) := by
  have flight := h.executes.flight
  rw [if_neg (by rw [idle]; decide)] at flight
  have taken : Fits 1 rest.length (execute s) := ⟨{
    held := h.executes.held
    busy := fun _ none => by
      have := queue.symm.trans none
      cases this
    idle := fun idle => by cases idle
    flight := congrArg (· + 1) flight
    short := (congrArg List.length queue).le }, h.order⟩
  unfold Machine.takeCommand
  split
  · exact taken.answered _ _
  · exact taken.executed _ _

/-- The form between steps: no command waits behind an IDLE CX (R164). -/
structure Rests (s : State) : Prop where
  fits : ∃ bound, Fits 0 bound s
  empty : s.mgmt.cx = .idle → s.mgmt.queue = []

theorem cxRun_rests (fuel : Nat) (h : Fits 0 bound s) (enough : s.mgmt.cx = .idle → s.mgmt.queue.length ≤ fuel) :
    Rests (cxRun fuel s) := by
  induction fuel generalizing s bound with
  | zero => exact ⟨⟨bound, h⟩, fun idle => List.eq_nil_of_length_eq_zero (Nat.le_zero.1 (enough idle))⟩
  | succ n ih =>
    unfold cxRun
    split
    · rename_i idle
      split
      · rename_i queue
        exact ⟨⟨bound, h⟩, fun _ => queue⟩
      · rename_i c rest queue
        have taken := h.takeCommand idle queue
        have fewer := enough idle
        rw [queue, List.length_cons] at fewer
        refine ih taken fun idle => ?_
        have short := taken.executes.short
        rw [if_pos idle] at short
        omega
    · rename_i busy
      exact ⟨⟨bound, h⟩, fun idle => absurd idle busy⟩

theorem finish_rests (h : Fits 0 bound s) : Rests (finish s) := cxRun_rests _ h fun _ => le_rfl

end

/-! ## The packets of a line -/

/-- The form within a step while no command is in judgment. -/
def Holding (s : State) : Prop := ∃ bound, Fits 0 bound s

theorem Holding.of_unmoved {s t : State} (h : Holding s) (k : Unmoved s t) : Holding t := by
  obtain ⟨bound, h⟩ := h
  exact ⟨bound, h.of_unmoved k⟩

theorem Holding.finish {s : State} (h : Holding s) : Rests (finish s) := by
  obtain ⟨bound, h⟩ := h
  exact finish_rests h

theorem Holding.restartTimer {s : State} (h : Holding s) : Holding (restartTimer s) := by
  obtain ⟨bound, h⟩ := h
  exact ⟨bound, h.restartTimer⟩

theorem Holding.offerCommand {s : State} (h : Holding s) (c : Command) : Holding (offerCommand c s) := by
  unfold Machine.offerCommand
  split
  · rename_i room
    obtain ⟨bound, ⟨held, busy, idle, flight, short⟩, order⟩ := h
    unfold heldCount Config.heldLimit at room
    refine ⟨bound + 1, ⟨?_, fun _ => ?_, idle, flight, ?_⟩, order⟩
    · simp only [State.setMgmt_fields, List.length_append, List.length_singleton]
      omega
    · simp [State.setMgmt_fields]
    · simp only [State.setMgmt_fields, List.length_append, List.length_singleton]
      omega
  · exact h.of_unmoved (unmoved_report _ _ _)

theorem acceptCommand_rests {s : State} (h : Holding s) (c : Command) : Rests (acceptCommand c s) :=
  (h.restartTimer.offerCommand c).finish

theorem cleared_of_idle {m : Management} (h : m.cx = .idle) :
    m.cleared = { m with queue := [], notice := none, answers := [] } := by
  unfold Management.cleared
  rw [h]

theorem cleared_of_busy {m : Management} (h : m.cx ≠ .idle) :
    m.cleared = { m with queue := m.queue.take 1, discard := true, notice := none, answers := [] } := by
  unfold Management.cleared
  cases cx : m.cx with
  | idle => exact absurd cx h
  | executing | stopped => rfl

theorem Holding.clearPacket {s : State} (h : Holding s) : Holding (clearPacket s) := by
  obtain ⟨bound, ⟨held, busy, idle, flight, short⟩, order⟩ := h.restartTimer
  unfold Machine.clearPacket
  dsimp only
  generalize Machine.restartTimer s = u at *
  by_cases cx : u.mgmt.cx = .idle
  · rw [cleared_of_idle cx]
    exact ⟨bound, ⟨Nat.zero_le _, fun notIdle => absurd cx notIdle, idle, flight, Nat.zero_le _⟩, order⟩
  · rw [cleared_of_busy cx]
    refine ⟨bound, ⟨?_, fun _ none => busy cx ?_, fun idle => absurd idle cx, flight, ?_⟩, order⟩
    · simp only [State.setMgmt_fields, List.length_take, List.length_nil]
      omega
    · simpa using none
    · simp only [State.setMgmt_fields, List.length_take, if_neg cx]
      omega

theorem managementPacket_holding {s : State} (h : Holding s) (f : Feed) (p : Packet) : Holding (managementPacket f p s) := by
  have judged : ∀ s, Holding s → Holding (judgeManagement p s) := fun s h =>
    keeps_ite (keeps_ite h.clearPacket (acceptCommand_rests h _).fits) (h.of_unmoved (unmoved_report _ _ s))
  have passed : Holding (passThrough f p s) := h.of_unmoved (.of_frame (frame_passThrough s f p))
  exact keeps_ite (judged s h) (keeps_ite (judged _ passed) passed)

theorem stampPacket_holding {s : State} (h : Holding s) (f : Feed) (p : Packet) : Holding (stampPacket f p s) := by
  unfold stampPacket
  dsimp only
  refine Holding.of_unmoved ?_ (.of_frame (frame_passThrough _ f p))
  obtain ⟨bound, h⟩ := h
  split
  · exact ⟨bound, keeps_ite (h.takeStamp f _ _) h⟩
  · exact ⟨bound, h⟩

theorem takeScanned_holding {s : State} (h : Holding s) (f : Feed) (line : Nat) (control : Bool) (x : Scanned) :
    Holding (takeScanned f line control x s) := by
  have passed : ∀ p, Holding (passThrough f p s) := fun p => h.of_unmoved (.of_frame (frame_passThrough s f p))
  refine keeps_ite h ?_
  cases x with
  | truncated w => exact h.of_unmoved (.of_told (frame_truncatedPacket s f w) (told_truncatedPacket f w s))
  | packet p =>
    dsimp only
    unfold takePacket
    split
    · exact h.of_unmoved (.of_told (frame_soundPacket s f line p) (told_soundPacket f line p s))
    · exact keeps_ite (managementPacket_holding h f p) (passed p)
    · exact keeps_ite (managementPacket_holding h f p) (passed p)
    · exact stampPacket_holding h f p
    · exact passed p
    · exact passed p

theorem readLine_holding {s : State} (h : Holding s) (f : Feed) (line : Nat) (control : Bool) (items : List Scanned)
    (taken : Nat) (em : List Nat) : Holding (readLine f line control items taken em s) := by
  have emitted : ∀ em : List Nat, ∀ s, Holding s → Holding (walk em (fun _ => emitOnce f) s) := fun em s h =>
    keeps_walk (fun _ s h => keeps_ite (h.of_unmoved (.of_told (frame_emission s _) (told_emission _ s))) h) em s h
  induction items generalizing taken em s with
  | nil => exact emitted em s h
  | cons x rest ih => exact ih (takeScanned_holding (emitted _ s h) f line control x) _ _

theorem Fits.drainQueue {judged bound : Nat} {s : State} (h : Fits judged bound s) (f : Feed) :
    Fits judged bound (drainQueue f s) := by
  unfold Machine.drainQueue
  refine keeps_ite (keeps_ite ?_ ?_) h
  · have emptied : Fits judged bound (s.setMgmt { s.mgmt with notice := none }) := h.of_unmoved (unmoved_setMgmt rfl)
    exact emptied.of_unmoved (.of_told (frame_noticeForNewest _) (told_noticeForNewest _))
  · obtain ⟨⟨held, busy, idle, flight, short⟩, order⟩ := h
    refine ⟨⟨?_, busy, idle, flight, short⟩, order⟩
    simp only [State.setMgmt_fields, List.length_tail]
    omega

theorem sendOutput_holding {s : State} (h : Holding s) (f : Feed) (line : Nat) (r : LineRecord) :
    Holding (sendOutput f line r s) := by
  refine keeps_ite ?_ (h.of_unmoved (.of_frame (frame_sendEmpty s f r)))
  unfold sendBuilt
  dsimp only
  obtain ⟨bound, h⟩ := h
  have drained := (h.of_unmoved (.of_frame (frame_countBuilt s f line))).drainQueue f
  exact ⟨bound, (drained.of_unmoved (.of_frame (frame_sendLine _ f _ _))).pathCheckLine f line _⟩

theorem takeLine_holding {s : State} (h : Holding s) (f : Feed) (r : LineRecord) (em : List Nat) : Holding (takeLine f r em s) :=
  keeps_ite (h.of_unmoved (.of_frame (frame_sendEmpty s f r)))
    (sendOutput_holding (readLine_holding (h.of_unmoved (.of_frame (frame_openLine s f _))) f _ _ _ _ _) f _ r)

/-! ## What every step keeps -/

theorem startUp_rests (cause : StartCause) (s : State) : Rests (startUp cause s) where
  fits := ⟨0, ⟨Nat.zero_le _, fun busy => absurd rfl busy, fun _ => rfl, rfl, Nat.zero_le _⟩, fun _ => rfl, Nat.zero_le _⟩
  empty _ := rfl

theorem Rests.of_same {s t : State} (h : Rests s) (mgmt : t.mgmt = s.mgmt) (pc : t.pc = s.pc) (ce : t.ce = s.ce) : Rests t where
  fits := by
    obtain ⟨bound, fits⟩ := h.fits
    exact ⟨bound, fits.of_unmoved ⟨by rw [mgmt], by rw [mgmt], by rw [mgmt], by rw [mgmt], by rw [pc], by rw [ce], by rw [ce]⟩⟩
  empty := by
    rw [mgmt]
    exact h.empty

theorem event_rests {g : State → State} (hg : ∀ s, Holding s → Holding (g s)) {s : State} (h : Rests s) : Rests (event g s) := by
  refine keeps_ite (Holding.finish (hg _ (keeps_ite (startUp_rests _ _).fits ?_))) h
  obtain ⟨bound, fits⟩ := h.fits
  exact ⟨bound, fits.takeExpiry⟩

/-- An operation that keeps the form whatever the bound. -/
theorem event_rests_of_fits {g : State → State} (hg : ∀ bound s, Fits 0 bound s → Fits 0 bound (g s)) {s : State} (h : Rests s) :
    Rests (event g s) := event_rests (fun s ⟨bound, h⟩ => ⟨bound, hg bound s h⟩) h

theorem manageRow_rests (code tag : Byte) (args : List Word) {s : State} (h : Rests s) : Rests (manageRow code tag args s) :=
  event_rests (fun _ h => keeps_ite h (keeps_ite (acceptCommand_rests h _).fits (h.of_unmoved (unmoved_report _ _ _)))) h

theorem exec_rests (c : Instr) (s t : State) (h : Rests s) (he : exec c s = .next t) : Rests t := by
  have pins : ∀ p, Rests (s.setPins p) := fun p => h.of_same rfl rfl rfl
  cases c
  case powerApplied => injection he with he; subst he; exact startUp_rests _ _
  case powerLoss => injection he with he; subst he; exact h.of_same rfl rfl rfl
  case resetPinAssert => injection he with he; subst he; exact pins _
  case resetPinRelease => injection he with he; subst he; exact keeps_ite (startUp_rests _ _) (pins _)
  case commandStartUp => injection he with he; subst he; exact keeps_ite (startUp_rests _ _) h
  case lineRecord => injection he with he; subst he; exact event_rests (fun _ h => keeps_ite h (takeLine_holding h _ _ _)) h
  case frameBoundary =>
    injection he with he; subst he; exact event_rests_of_fits (fun _ _ h => keeps_ite h (h.frameMark _ _ _)) h
  case lineRecordGap => injection he with he; subst he; exact event_rests_of_fits (fun _ _ h => h.lineGap _ _) h
  case setTick => injection he with he; subst he; exact event_rests_of_fits (fun _ _ h => h.setTickEvent _ _ _ _) h
  case referencePulse => injection he with he; subst he; exact event_rests_of_fits (fun _ _ h => h.pulseEvent _ _ _) h
  case referenceWaitTimeout => injection he with he; subst he; exact event_rests_of_fits (fun _ _ h => h.waitTimeoutEvent _ _ _) h
  case referenceLost =>
    injection he with he
    subst he
    exact event_rests (fun s h => h.of_unmoved (.of_told (frame_referenceLostEvent s _) (told_referenceLostEvent _ s))) h
  case controlSilence => injection he with he; subst he; exact event_rests (fun _ h => h) h
  case storeWriteEnd => injection he with he; subst he; exact keeps_ite (h.of_same rfl rfl rfl) h
  all_goals
    injection he with he
    subst he
    exact manageRow_rests _ _ _ h

theorem rests_iff (s : State) : Rests s ↔
    s.mgmt.heldFits = true ∧ s.mgmt.executorFits = true ∧ s.flightFits = true ∧ s.ce.orderFits = true := by
  unfold Management.heldFits Management.executorFits State.flightFits heldCount Config.heldLimit
  rw [orderFits_iff, decide_eq_true_iff]
  constructor
  · rintro ⟨⟨bound, ⟨held, busy, idle, flight, -⟩, order⟩, empty⟩
    refine ⟨held, ?_, ?_, order⟩
    · cases cx : s.mgmt.cx with
      | idle => simp [empty cx, idle cx]
      | executing | stopped => simpa using busy (by rw [cx]; decide)
    · cases cx : s.mgmt.cx <;> simpa [cx] using flight
  · rintro ⟨held, executor, flight, order⟩
    cases cx : s.mgmt.cx with
    | idle =>
      rw [cx] at executor flight
      simp only [Bool.and_eq_true, List.isEmpty_iff, Bool.not_eq_true', beq_iff_eq] at executor flight
      exact ⟨⟨_, ⟨held, fun busy => absurd cx busy, fun _ => executor.2, by simp [cx, flight], Nat.le_add_right _ _⟩, order⟩,
        fun _ => executor.1⟩
    | executing | stopped =>
      have notIdle : s.mgmt.cx ≠ .idle := by rw [cx]; decide
      rw [cx] at executor flight
      simp only [Bool.not_eq_true', List.isEmpty_eq_false_iff, beq_iff_eq] at executor flight
      exact ⟨⟨_, ⟨held, fun _ => executor, fun idle => absurd idle notIdle, by simp [cx, flight], Nat.le_add_right _ _⟩, order⟩,
        fun idle => absurd idle notIdle⟩

/-- Settles O55: within a step commands may wait, and one be in judgment, but each answer, request and path check moves the count of commands in flight with the CX, and the step ends when the CX is busy or the queue empty. -/
theorem executorInvariant : Obligations.ExecutorInvariant := by
  unfold Obligations.ExecutorInvariant
  intro s t held executor flight order next
  have rests := (rests_iff s).2 ⟨held, executor, flight, order⟩
  rw [← rests_iff]
  unfold step at next
  split at next
  · injection next with next
    exact next ▸ rests
  · rename_i rest _
    exact exec_rests _ { s with pending := rest } t (rests.of_same rfl rfl rfl) next

end Machine

end Sys2Proof
end

section
/-! PROOF. The queue of commands, the state after reset, power, start-up and the reset pin (R2, R11, R162, R172 to R178). -/

namespace Sys2Proof

namespace Machine

/-- Settles O1: step is its own match on the queue. -/
theorem stepTakesQueueFront : Obligations.StepTakesQueueFront := by
  unfold Obligations.StepTakesQueueFront
  refine ⟨fun c rest s pending => ?_, fun s pending => ?_⟩
  · rw [step, pending]
  · rw [step, pending]

/-- Settles O60: the state after reset is one closed value, whose forms are computed. -/
theorem resetIsInForm : Obligations.ResetIsInForm := by
  unfold Obligations.ResetIsInForm
  exact ⟨by decide, by decide, by decide, by decide, by decide, by decide, by decide, by decide, by decide, by decide,
    by decide, by decide, by decide, by decide⟩

/-! ## Reset -/

theorem bankOf_reset (b : BankCode) : bankOf State.reset b = Bank.default := by
  cases b <;> rfl

/-- Settles O2: each table after reset is filled with one start value. -/
theorem resetLeavesStartUpValues : Obligations.ResetLeavesStartUpValues := by
  have fr : ∀ f, State.reset.fr.get f = Receiver.start := Table.get_fill _
  have quads : ∀ q, Receiver.start.quads.get q = QuadTrack.start := Table.get_fill _
  have fmt : ∀ f, State.reset.fmt.get f = Formatter.start := Table.get_fill _
  have built : ∀ q, Formatter.start.built.get q = 0 := Table.get_fill _
  have rings : ∀ r, State.reset.rings.get r = Ring.empty := Table.get_fill _
  have entries : ∀ x, Bank.default.entries.get x = Entry.default := Table.get_fill _
  have modes : ∀ q, Bank.default.modes.get q = .pass := Table.get_fill _
  have rounds : ∀ d, State.reset.cm.rounds.get d = ⟨16 * d.val, 0, none, false, true⟩ := Table.get_tab _
  unfold Obligations.ResetLeavesStartUpValues
  refine ⟨fun f => ?_, ⟨rfl, rfl, rfl, rfl, rfl, rfl⟩, fun r => by rw [rings]; rfl, Table.get_fill _, fun b x => ?_, fun b q => ?_,
    Table.get_fill _, ⟨rfl, rfl, rfl, rfl, rfl⟩, Table.get_fill _, fun x => ⟨Table.get_fill _ x, Table.get_fill _ x⟩,
    ⟨rfl, rfl, Table.get_fill _⟩, ⟨rfl, fun d => ?_⟩, ⟨rfl, Table.get_fill _, Table.get_fill _⟩, rfl,
    ⟨rfl, rfl, rfl, rfl, rfl, rfl, rfl, rfl, rfl, rfl, rfl⟩, rfl, rfl⟩
  · rw [fr, fmt]
    refine ⟨rfl, rfl, rfl, rfl, rfl, rfl, rfl, rfl, fun q => ?_⟩
    rw [quads, built]
    exact ⟨rfl, rfl, rfl, rfl, rfl, rfl⟩
  · rw [bankOf_reset, entries]
    rfl
  · rw [bankOf_reset, modes]
  · rw [rounds]
    exact ⟨rfl, rfl, rfl, rfl⟩

/-! ## Start-up -/

theorem sampledAddress_eq (pins : BitVec 4) : sampledAddress pins = if pins = 15 then 14 else pins.toNat := by
  unfold sampledAddress
  split
  · rename_i highest
    rw [highest]
    rfl
  · rename_i lower
    have := BitVec.toNat_ne_iff_ne.2 lower
    have := pins.isLt
    simp at this
    bv_omega

theorem load_of_good {t : Store} {im : Image} (h : t.goodImage = some im) : t.examined = ⟨.valid, some im, none⟩ ∧
    t.bank = im.bank ∧ ∀ i, t.guards.get i = ⟨(im.guards.get i).enabled, (im.guards.get i).low, (im.guards.get i).high, false⟩ := by
  unfold Store.examined Store.bank Store.guards
  rw [h]
  exact ⟨rfl, rfl, fun i => by rw [Table.get_map]; rfl⟩

theorem load_of_not_good {t : Store} (h : t.goodImage = none) : t.examined = ⟨.invalid, t.image, none⟩ ∧
    t.bank = Bank.default ∧ ∀ i, t.guards.get i = ⟨false, 0, 0, false⟩ := by
  unfold Store.examined Store.bank Store.guards
  rw [h]
  exact ⟨rfl, rfl, Table.get_fill _⟩

/-- Start-up with the address pins at these levels. -/
theorem startUp_startedUp (cause : StartCause) (pins : BitVec 4) {s u : State} (address : u.pins.address = pins)
    (lineIn : u.lineIn = s.lineIn) (pending : u.pending = s.pending) (store : u.store = s.store) :
    StartedUp pins s (startUp cause u) := by
  refine ⟨?_, rfl, rfl, rfl, rfl, ⟨rfl, rfl, rfl, rfl, rfl, rfl, rfl, rfl, rfl, rfl, rfl, rfl⟩, lineIn, rfl, pending, ?_⟩
  · rw [← sampledAddress_eq, ← address]
    rfl
  · rw [← store]
    cases image : u.store.goodImage with
    | some im => exact load_of_good image
    | none => exact load_of_not_good image

/-- Settles O3: each cause runs the one start-up, on the pins it leaves. -/
theorem startUpLoadsPart : Obligations.StartUpLoadsPart := by
  unfold Obligations.StartUpLoadsPart
  intro pins s
  refine ⟨⟨_, rfl, rfl, startUp_startedUp _ pins rfl rfl rfl rfl⟩, fun powered => ?_, fun unpowered => ?_, fun powered due => ?_⟩
  · refine ⟨_, congrArg Host.Outcome.next (if_pos powered), ?_, startUp_startedUp _ pins rfl rfl rfl rfl⟩
    simp [startUp, State.setPins, powered]
  · exact congrArg Host.Outcome.next (if_neg (by rw [unpowered]; decide))
  · refine ⟨_, congrArg Host.Outcome.next (if_pos (by rw [powered, due]; rfl)), ?_, startUp_startedUp _ pins rfl rfl rfl rfl⟩
    simp [startUp, withAddressPins, State.setPins, powered]

/-! ## Power loss, the held pin and the end of a write -/

/-- A row of the code table brings its command; an event none. -/
theorem exec_of_commandOf {c : Instr} {k : Command} (h : commandOf? c = some k) (s : State) :
    exec c s = .next (manageRow k.code k.tag k.args s) := by
  cases c <;> simp only [commandOf?, reduceCtorEq, Option.some.injEq] at h <;> subst h <;> rfl

theorem event_of_unpowered (g : State → State) {s : State} (h : s.pins.powered = false) : event g s = s := if_neg (by rw [h]; decide)

/-- With nothing due and nothing to take, an event that the held pin keeps away changes nothing (R176). -/
theorem feedEvent_of_held (g : State → State) {s : State} (powered : s.pins.powered = true) (held : s.pins.resetHeld = true)
    (noStart : s.pins.startUpDue = false) (noExpiry : silenceDue s = false) (queue : s.mgmt.queue = []) : feedEvent g s = s := by
  have settled : settle s = s := by simp [settle, takeExpiry, noStart, noExpiry]
  unfold feedEvent event
  dsimp only
  rw [if_pos powered, settled, if_pos held, finish_of_queue_empty s queue]

/-- Without power a command other than those of power and the pin changes nothing (log entry 12). -/
theorem exec_of_unpowered (c : Instr) {s : State} (h : s.pins.powered = false) (notApplied : ∀ p, c ≠ .powerApplied p)
    (notLoss : c ≠ .powerLoss) (notHeld : c ≠ .resetPinAssert) (notReleased : ∀ p, c ≠ .resetPinRelease p) :
    exec c s = .next s := by
  have nothing : ∀ g, Host.Outcome.next (event g s) = (.next s : Host.Outcome State Fault Refusal) := fun g =>
    congrArg _ (event_of_unpowered g h)
  have row : ∀ code tag args, Host.Outcome.next (manageRow code tag args s) = (.next s : Host.Outcome State Fault Refusal) :=
    fun _ _ _ => by
      unfold manageRow feedEvent
      exact nothing _
  cases c
  case powerApplied p => exact absurd rfl (notApplied p)
  case powerLoss => exact absurd rfl notLoss
  case resetPinAssert => exact absurd rfl notHeld
  case resetPinRelease p => exact absurd rfl (notReleased p)
  case commandStartUp => exact congrArg _ (if_neg (by rw [h]; simp))
  case storeWriteEnd => exact congrArg _ (if_neg (by rw [h]; simp))
  case lineRecord | frameBoundary | lineRecordGap | setTick | referencePulse | referenceWaitTimeout | referenceLost |
      controlSilence => exact nothing _
  all_goals exact row _ _ _

theorem Store.written_of_not_writing {t : Store} (h : t.state ≠ .writing) : t.written = t := by
  unfold Store.written
  split
  · rename_i writing _
    exact absurd writing h
  · rfl

/-- Settles O5: by the definitions of the events, and by the held pin and the missing power that end them early. -/
theorem powerLossHeldPinAndWriteEnd : Obligations.PowerLossHeldPinAndWriteEnd := by
  unfold Obligations.PowerLossHeldPinAndWriteEnd
  refine ⟨fun s => ⟨?_, fun k powered writing contents => ?_⟩, fun s => ⟨rfl, fun powered held noStart noExpiry queue => ?_⟩,
    fun c s unpowered => ?_, fun pins s noStart => ?_, fun s notWriting => ?_, fun s quiet => ?_⟩
  · have interrupted : s.store.interrupted = if s.store.state = .writing then ⟨.invalid, none, none⟩ else s.store := by
      unfold Store.interrupted
      cases s.store.state <;> rfl
    exact congrArg (fun t => Host.Outcome.next { s with pins := { s.pins with powered := false }, store := t }) interrupted
  · have written : s.store.written = ⟨.valid, some k.sealed, none⟩ := by
      unfold Store.written
      rw [writing, contents]
    refine ⟨k.sealed, ?_, rfl, by simp [Image.good, ImageContents.sealed]⟩
    rw [← written]
    exact congrArg _ (if_pos powered)
  · have nothing : ∀ g, Host.Outcome.next (feedEvent g s) = (.next s : Host.Outcome State Fault Refusal) := fun g =>
      congrArg _ (feedEvent_of_held g powered held noStart noExpiry queue)
    exact ⟨fun f r e => nothing _, fun f p o => nothing _, fun c k brings => by rw [exec_of_commandOf brings]; exact nothing _⟩
  · have same := exec_of_unpowered c unpowered
    cases c
    case powerApplied | powerLoss | resetPinAssert | resetPinRelease => trivial
    all_goals exact same (by simp) (by simp) (by simp) (by simp)
  · exact congrArg _ (if_neg (by rw [noStart]; simp))
  · have same := Store.written_of_not_writing notWriting
    refine congrArg _ (keeps_ite (P := fun t => t = s) ?_ rfl)
    rw [same]
  · have awake := awake_of_quiet quiet
    exact congrArg _ ((event_of_awake _ s awake).trans (finish_of_noneWaits s (noneWaits_of_quiet quiet)))

end Machine

end Sys2Proof
end

section
/-! PROOF. STORE FAILSAFE, READ DEVICE and RESET DEVICE (R171, R172, R174, R175). -/

namespace Sys2Proof

namespace Machine

/-! ## STORE FAILSAFE -/

theorem exec_storeFailsafe (tag : Byte) (args : List Word) (s : State) :
    exec (.storeFailsafe tag args) s = .next (manageRow 64 tag args s) := rfl

theorem actStoreFailsafe_of_code (b : BankCode) (s : State) : actStoreFailsafe [bankCode b] s =
    if 64 < pairNeed (bankOf s b) then .answered .refusedTableFull [bankCode b, numWord (pairNeed (bankOf s b))] s
    else if s.store.state = .writing then .answered .refusedBusy [] s
    else .answered .started [bankCode b, numWord (pairNeed (bankOf s b)), 1]
      { s with failsafe := bankOf s b, store := ⟨.writing, none, some (imageOf (bankOf s b) s.guards)⟩ } := by
  simp only [actStoreFailsafe, bankArg?_bankCode]
  rfl

theorem actStoreFailsafe_of_range {w : Word} (h : 4 ≤ w.toNat) (s : State) : actStoreFailsafe [w] s = refusedArgument s := by
  simp only [actStoreFailsafe, bankArg?_none h]

theorem actStoreFailsafe_of_count {args : List Word} (hc : args.length ≠ 1) (s : State) :
    actStoreFailsafe args s = refusedArgument s := by
  rw [actStoreFailsafe]
  rintro _ rfl
  exact hc rfl

/-- F takes a bank, and the image write begins with these contents. -/
def beginWrite (k : Bank) (c : ImageContents) (s : State) : State := { s with failsafe := k, store := ⟨.writing, none, some c⟩ }

theorem besideMgmt_beginWrite (k : Bank) (c : ImageContents) : BesideMgmt (beginWrite k c) := fun _ _ => rfl

/-- Settles O39: a case for each branch of the command's arm. -/
theorem storeFailsafeBeginsWrite : Obligations.StoreFailsafeBeginsWrite := by
  unfold Obligations.StoreFailsafeBeginsWrite
  intro tag b s ready
  dsimp only
  have bank := fun c => bankOf_judging_of_awake (awake_of_ready ready) c b
  obtain ⟨m, judged⟩ := judging_of_awake (awake_of_ready ready) ⟨tag, 64, [bankCode b]⟩
  have short : [bankCode b].length ≤ Config.maxArgs := by simp [Config.maxArgs]
  refine ⟨fun exceeds => ?_, fun fits writing => ?_, fun fits notWriting => ?_, fun args few wrong => ?_, fun w range => ?_⟩
  · rw [exec_storeFailsafe, manageRow_answers (r := .storeFailsafe) _ BesideMgmt.id ready short rfl]
    rw [act, actStoreFailsafe_of_code, bank, if_pos exceeds]
  · rw [exec_storeFailsafe, manageRow_answers (r := .storeFailsafe) _ BesideMgmt.id ready short rfl]
    rw [act, actStoreFailsafe_of_code, bank, if_neg (by omega), judged, if_pos (by exact writing)]
  · rw [exec_storeFailsafe, manageRow_answers (r := .storeFailsafe) _
      (besideMgmt_beginWrite (bankOf s b) (imageOf (bankOf s b) s.guards)) ready short rfl]
    · rfl
    · rw [act, actStoreFailsafe_of_code, bank, if_neg (by omega), judged, if_neg (by exact notWriting)]
      rfl
  · exact row_refused .storeFailsafe tag few (actStoreFailsafe_of_count wrong) ready
  · have short : [w].length ≤ Config.maxArgs := by simp [Config.maxArgs]
    exact row_refused .storeFailsafe tag short (actStoreFailsafe_of_range range) ready

/-! ## READ DEVICE and RESET DEVICE -/

/-- The bits of a table of flags as a number: bit d is worth 2 to the d. -/
theorem foldr_bits (t : Table 9 Bool) : t.cells.foldr (fun b acc => b.toNat + 2 * acc) 0 =
    ((List.finRange 9).map fun d => if t.get d then 2 ^ d.val else 0).sum := by
  have worth : ∀ (b : Bool) k, (if b then k else 0) = k * b.toNat := fun b k => by cases b <;> simp
  rw [Table.cells_eq_map_get]
  simp only [List.finRange_succ, List.finRange_zero, List.map_cons, List.map_nil, List.foldr_cons, List.foldr_nil,
    List.sum_cons, List.sum_nil, worth]
  norm_num
  ring

/-- Settles O53: READ DEVICE answers the words of the state it is judged in; RESET DEVICE leaves that state with the CX stopped. -/
theorem readAndResetDevice : Obligations.ReadAndResetDevice := by
  unfold Obligations.ReadAndResetDevice
  intro tag s ready
  obtain ⟨m, restarted⟩ := restarted_of_awake (awake_of_ready ready)
  have judged : ∀ c, s.judging c = s.setMgmt { m with queue := [c], cx := .executing } := fun c => by
    rw [State.judging, restarted]
    rfl
  dsimp only
  constructor
  · have words := manageRow_answers (tag := tag) (r := .readDevice) _ BesideMgmt.id ready (by decide) (args := []) (code := 57) rfl rfl
    refine (congrArg Host.Outcome.next words).trans ?_
    congr 2
    rw [judged, restarted]
    simp only [deviceWords, controlWords, referenceWords, twoWords, List.cons_append, List.nil_append, List.cons.injEq,
      State.setMgmt_fields, true_and, and_true]
    refine ⟨?_, rfl, ?_, ?_, ?_, rfl, ?_⟩
    · cases s.pins.cause <;> rfl
    · unfold switchedWord
      cases s.ce.inFlight with
      | none => rfl
      | some c => exact congrArg numWord (foldr_bits c.switched)
    · match s.ce.lastSource with
      | none | some (.command _) | some .failsafe => rfl
      | some (.cue c) =>
        show (if c = 0 then (2 : Word) else 3) = numWord (2 + c.val)
        revert c
        decide
    · cases s.ce.lastResult <;> rfl
    · cases s.store.state <;> rfl
  · have stopped := manageRow_of_inFlight (tag := tag) (r := .resetDevice) ready (by decide) (args := []) (code := 58) rfl rfl
      fun idle => CxState.noConfusion idle
    refine (congrArg Host.Outcome.next stopped).trans ?_
    rw [judged, restarted]
    rfl

end Machine

end Sys2Proof
end

section
/-! PROOF. Packets: their layouts bit by bit, and the scan that finds what was written (R20 to R22). -/

namespace Sys2Proof

namespace Machine

/-! ## Fields of words as numbers -/

theorem toNat_append_add {m n : Nat} (x : BitVec m) (y : BitVec n) : (x ++ y).toNat = x.toNat * 2 ^ n + y.toNat := by
  rw [BitVec.toNat_append, ← Nat.shiftLeft_add_eq_or_of_lt y.isLt, Nat.shiftLeft_eq]

theorem toNat_extract {w : Nat} (x : BitVec w) (start len : Nat) :
    (x.extractLsb' start len).toNat = x.toNat / 2 ^ start % 2 ^ len := by
  rw [BitVec.extractLsb'_toNat, Nat.shiftRight_eq_div_pow]

theorem getLsbD_eq_decide {w : Nat} (x : BitVec w) (i : Nat) : x.getLsbD i = decide (x.toNat / 2 ^ i % 2 = 1) := by
  rw [BitVec.getLsbD, Nat.testBit_eq_decide_div_mod_eq]

theorem headerField_eq (h : Word) : headerField h = h.toNat / 256 % 16 := toNat_extract h 8 4

theorem headerLength_eq (h : Word) : headerLength h = h.toNat % 256 := by
  rw [headerLength, toNat_extract]
  omega

theorem headerClass_eq (h : Word) : headerClass h = h.toNat / 4096 := by
  have := h.isLt
  rw [headerClass, toNat_extract]
  omega

theorem makeHeader_toNat {c f n : Nat} (hc : c < 16) (hf : f < 16) (hn : n < 256) :
    (makeHeader c f n).toNat = 4096 * c + 256 * f + n := by
  rw [makeHeader, toNat_append_add, toNat_append_add]
  simp only [BitVec.toNat_ofNat]
  omega

theorem checksumOf_toNat (h : Word) (content : List Word) :
    (checksumOf h content).toNat = (h.toNat + (content.map BitVec.toNat).sum) % 65536 := by
  unfold checksumOf
  induction content generalizing h with
  | nil => exact (Nat.mod_eq_of_lt h.isLt).symm
  | cons w rest ih =>
    rw [List.foldl_cons, ih, List.map_cons, List.sum_cons, BitVec.toNat_add]
    omega

/-! ## The first content word of a SOUND packet, and its sets -/

theorem soundWord_toNat (h : SoundHead) : (soundWord h).toNat =
    4096 * h.count.toNat + 512 * h.phase.toNat + 256 * h.first.toNat + 64 * h.setCount.toNat + 32 * h.wide.toNat +
      16 * (h.active.get 3).toNat + 8 * (h.active.get 2).toNat + 4 * (h.active.get 1).toNat + 2 * (h.active.get 0).toNat := by
  simp only [soundWord, toNat_append_add, BitVec.toNat_ofBool, BitVec.toNat_ofNat]
  omega

theorem soundHead_soundWord (h : SoundHead) : soundHead (soundWord h) = h := by
  have word := soundWord_toNat h
  have count := h.count.isLt
  have phase := h.phase.isLt
  have setCount := h.setCount.isLt
  have flag : ∀ b : Bool, b.toNat ≤ 1 := Bool.toNat_le
  have first := flag h.first
  have wide := flag h.wide
  have a0 := flag (h.active.get 0)
  have a1 := flag (h.active.get 1)
  have a2 := flag (h.active.get 2)
  have a3 := flag (h.active.get 3)
  have bit : ∀ (b : Bool) (k : Nat), k = b.toNat → decide (k = 1) = b := fun b k e => by
    subst e
    cases b <;> rfl
  cases h with
  | mk hCount hPhase hFirst hSet hWide hActive =>
    simp only at word count phase setCount first wide a0 a1 a2 a3
    rw [soundHead, SoundHead.mk.injEq]
    refine ⟨?_, ?_, ?_, ?_, ?_, Table.ext_get fun i => ?_⟩
    · refine BitVec.eq_of_toNat_eq ?_
      rw [toNat_extract, word]
      omega
    · refine BitVec.eq_of_toNat_eq ?_
      rw [toNat_extract, word]
      omega
    · rw [getLsbD_eq_decide, word]
      exact bit _ _ (by omega)
    · refine BitVec.eq_of_toNat_eq ?_
      rw [toNat_extract, word]
      omega
    · rw [getLsbD_eq_decide, word]
      exact bit _ _ (by omega)
    · rw [Table.get_tab, getLsbD_eq_decide, word]
      refine bit _ _ ?_
      match i with
      | 0 => show _ / 2 ^ (0 + 1) % 2 = _; omega
      | 1 => show _ / 2 ^ (1 + 1) % 2 = _; omega
      | 2 => show _ / 2 ^ (2 + 1) % 2 = _; omega
      | 3 => show _ / 2 ^ (3 + 1) % 2 = _; omega

theorem soundWord_spare (h : SoundHead) : (soundWord h).getLsbD 0 = false := by
  rw [getLsbD_eq_decide, soundWord_toNat, decide_eq_false_iff_not]
  omega

theorem unpackSet_get (ws : List Word) : 
    ((unpackSet ws).get 0).toNat = (ws.getD 0 0).toNat * 256 + (ws.getD 1 0).toNat / 256 ∧
    ((unpackSet ws).get 1).toNat = (ws.getD 1 0).toNat % 256 * 65536 + (ws.getD 2 0).toNat ∧
    ((unpackSet ws).get 2).toNat = (ws.getD 3 0).toNat * 256 + (ws.getD 4 0).toNat / 256 ∧
    ((unpackSet ws).get 3).toNat = (ws.getD 4 0).toNat % 256 * 65536 + (ws.getD 5 0).toNat := by
  have high : ∀ x y : Word, (x ++ y.extractLsb' 8 8).toNat = x.toNat * 256 + y.toNat / 256 := fun x y => by
    have := y.isLt
    rw [toNat_append_add, toNat_extract]
    omega
  have low : ∀ x y : Word, (x.extractLsb' 0 8 ++ y).toNat = x.toNat % 256 * 65536 + y.toNat := fun x y => by
    rw [toNat_append_add, toNat_extract]
    omega
  exact ⟨high _ _, low _ _, high _ _, low _ _⟩

theorem unpackSet_packSet (t : Table 4 Sample) : unpackSet (packSet t) = t := by
  obtain ⟨u0, u1, u2, u3⟩ := unpackSet_get (packSet t)
  have word (x : Sample) : (x.extractLsb' 8 16).toNat = x.toNat / 256 := by
    have := x.isLt
    rw [toNat_extract]
    omega
  have middle (x y : Sample) : (x.extractLsb' 0 8 ++ y.extractLsb' 16 8 : Word).toNat = x.toNat % 256 * 256 + y.toNat / 65536 := by
    have := y.isLt
    rw [toNat_append_add, toNat_extract, toNat_extract]
    omega
  have tail (x : Sample) : (x.extractLsb' 0 16).toNat = x.toNat % 65536 := by
    rw [toNat_extract]
    omega
  have bounds := fun i => (t.get i).isLt
  refine Table.ext_get fun i => BitVec.eq_of_toNat_eq ?_
  have w0 : ((packSet t).getD 0 0).toNat = (t.get 0).toNat / 256 := word _
  have w1 : ((packSet t).getD 1 0).toNat = (t.get 0).toNat % 256 * 256 + (t.get 1).toNat / 65536 := middle _ _
  have w2 : ((packSet t).getD 2 0).toNat = (t.get 1).toNat % 65536 := tail _
  have w3 : ((packSet t).getD 3 0).toNat = (t.get 2).toNat / 256 := word _
  have w4 : ((packSet t).getD 4 0).toNat = (t.get 2).toNat % 256 * 256 + (t.get 3).toNat / 65536 := middle _ _
  have w5 : ((packSet t).getD 5 0).toNat = (t.get 3).toNat % 65536 := tail _
  have b0 := bounds 0
  have b1 := bounds 1
  have b2 := bounds 2
  have b3 := bounds 3
  match i with
  | 0 => rw [u0, w0, w1]; omega
  | 1 => rw [u1, w1, w2]; omega
  | 2 => rw [u2, w3, w4]; omega
  | 3 => rw [u3, w4, w5]; omega

theorem packSet_length (t : Table 4 Sample) : (packSet t).length = 6 := rfl

/-- The words of set i among those of the sets. -/
theorem flatMap_packSet_take {sets : List (Table 4 Sample)} {i : Nat} (h : i < sets.length) :
    ((sets.flatMap packSet).drop (6 * i)).take 6 = packSet sets[i] := by
  induction sets generalizing i with
  | nil => simp at h
  | cons t rest ih =>
    cases i with
    | zero => rw [List.flatMap_cons, Nat.mul_zero, List.drop_zero, List.take_left' (packSet_length t)]; rfl
    | succ i =>
      rw [List.flatMap_cons, show 6 * (i + 1) = (packSet t).length + 6 * i from by rw [packSet_length]; omega,
        List.drop_append, List.drop_eq_nil_of_le (by omega), List.nil_append]
      rw [Nat.add_sub_cancel_left]
      exact ih (by simpa using h)

/-! ## A built SOUND packet reads back -/

section
variable (q : Quad) (h : SoundHead) (sets : List (Table 4 Sample))

theorem makeSound_content : (makeSound q h sets).content = soundWord h :: sets.flatMap packSet := rfl

theorem makeSound_soundHead : (makeSound q h sets).soundHead = h := soundHead_soundWord h

theorem makeSound_good : (makeSound q h sets).good = true := by
  simp [makeSound, makePacket, Packet.good]

theorem makeSound_soundSets (count : sets.length = h.setCount.toNat) :
    (makeSound q h sets).soundSets = sets.map fun x => ⟨x, h.active⟩ := by
  unfold Packet.soundSets
  rw [makeSound_soundHead, ← count]
  refine List.ext_getElem (by simp) fun i hi _ => ?_
  have inside : i < sets.length := by simpa using hi
  rw [List.getElem_map, List.getElem_range, List.getElem_map, makeSound_content,
    show 1 + 6 * i = 6 * i + 1 from Nat.add_comm _ _, List.drop_succ_cons, flatMap_packSet_take inside, unpackSet_packSet]

variable {sets} (few : sets.length ≤ 2)
include few

theorem makeSound_header : (makeSound q h sets).header.toNat = 4096 + 256 * q.val + (1 + 6 * sets.length) :=
  makeHeader_toNat (c := 1) (by omega) (by omega) (by omega)

theorem makeSound_class : classOf (makeSound q h sets).header = .sound := by
  have header := makeSound_header q h few
  have one : headerClass (makeSound q h sets).header = 1 := by
    rw [headerClass_eq, header]
    omega
  rw [classOf, one]
  rfl

theorem makeSound_quad : (makeSound q h sets).quad? = some q := by
  have header := makeSound_header q h few
  have field : headerField (makeSound q h sets).header = q.val := by
    have high : (4096 + 256 * q.val + (1 + 6 * sets.length)) / 256 = 16 + q.val := by omega
    rw [headerField_eq, header, high]
    omega
  unfold Packet.quad?
  rw [dif_pos (by omega)]
  exact congrArg some (Fin.ext field)

theorem makeSound_length : headerLength (makeSound q h sets).header = 1 + 6 * sets.length := by
  rw [headerLength_eq, makeSound_header q h few]
  omega

end

/-! ## The scan -/

theorem scanWords_of_other (fuel : Nat) {w : Word} (h : w ≠ Config.marker) (rest : List Word) :
    scanWords (fuel + 1) (w :: rest) = scanWords fuel rest := if_neg h

theorem scanWords_of_marker (fuel : Nat) (h : Word) (body : List Word) : scanWords (fuel + 1) (Config.marker :: h :: body) =
    if headerLength h < body.length then
      .packet ⟨h, body.take (headerLength h), body.getD (headerLength h) 0⟩ :: scanWords fuel (body.drop (headerLength h + 1))
    else [.truncated (some h)] := if_pos rfl

theorem scanWords_zeros (fuel n : Nat) : scanWords fuel (List.replicate n 0) = [] := by
  induction fuel generalizing n with
  | zero => rfl
  | succ fuel ih =>
    cases n with
    | zero => rfl
    | succ n =>
      rw [List.replicate_succ, scanWords_of_other fuel (by decide)]
      exact ih n

/-- A whole packet at the front is found, and the scan goes on behind it. -/
theorem scanWords_packet (fuel : Nat) {p : Packet} (length : p.content.length = headerLength p.header) (rest : List Word) :
    scanWords (fuel + 1) (p.words ++ rest) = .packet p :: scanWords fuel rest := by
  have body : p.words ++ rest = Config.marker :: p.header :: (p.content ++ p.checksum :: rest) := by
    simp [Packet.words]
  rw [body, scanWords_of_marker, ← length, if_pos (by simp), List.take_left, List.getD_append_right _ _ _ _ le_rfl, Nat.sub_self, List.getD_cons_zero,
    List.drop_append, List.drop_eq_nil_of_le (by omega), List.nil_append, Nat.add_sub_cancel_left, List.drop_succ_cons,
    List.drop_zero]

theorem scanWords_packets {ps : List Packet} (lengths : ∀ p ∈ ps, p.content.length = headerLength p.header) (n fuel : Nat)
    (enough : ps.length ≤ fuel) :
    scanWords fuel (ps.flatMap Packet.words ++ List.replicate n 0) = ps.map .packet := by
  induction ps generalizing fuel with
  | nil => exact scanWords_zeros fuel n
  | cons p ps ih =>
    cases fuel with
    | zero => simp at enough
    | succ fuel =>
      rw [List.flatMap_cons, List.append_assoc, scanWords_packet fuel (lengths p List.mem_cons_self),
        ih (fun p' mem => lengths p' (List.mem_cons_of_mem p mem)) fuel (Nat.le_of_succ_le_succ enough), List.map_cons]

theorem length_le_flatMap_words (ps : List Packet) : ps.length ≤ (ps.flatMap Packet.words).length := by
  induction ps with
  | nil => exact le_rfl
  | cons p ps ih =>
    rw [List.flatMap_cons, List.length_append, List.length_cons, Packet.words, List.cons_append, List.length_cons]
    omega

theorem scanLine_packets {ps : List Packet} (lengths : ∀ p ∈ ps, p.content.length = headerLength p.header) (n : Nat) :
    scanLine (ps.flatMap Packet.words ++ List.replicate n 0) = ps.map .packet :=
  scanWords_packets lengths n _ ((length_le_flatMap_words ps).trans (by rw [List.length_append]; omega))

theorem scanLine_truncated {h : Word} {rest : List Word} (short : rest.length ≤ headerLength h) :
    scanLine (Config.marker :: h :: rest) = [.truncated (some h)] := by
  rw [scanLine, List.length_cons, scanWords_of_marker]
  exact if_neg (by omega)

theorem scanWords_unmarked (fuel : Nat) {ws : List Word} (h : Config.marker ∉ ws) : scanWords fuel ws = [] := by
  induction fuel generalizing ws with
  | zero => rfl
  | succ fuel ih =>
    cases ws with
    | nil => rfl
    | cons w rest =>
      rw [List.mem_cons, not_or] at h
      rw [scanWords_of_other fuel (Ne.symm h.1)]
      exact ih h.2

theorem scanLine_unmarked {ws : List Word} (h : Config.marker ∉ ws) : scanLine ws = [] := scanWords_unmarked _ h

/-! ## The statements -/

theorem classOf_eq (h : Word) : classOf h = match h.toNat / 4096 with
    | 1 => .sound
    | 2 => .manage
    | 3 => .answer
    | 4 => .stamp
    | 5 => .clear
    | _ => .other := by
  rw [← headerClass_eq]
  rfl

theorem soundSets_length (p : Packet) : p.soundSets.length = p.soundHead.setCount.toNat := by
  simp [Packet.soundSets]

theorem soundSets_getElem {p : Packet} {i : Nat} {x : SampleSet} (h : p.soundSets[i]? = some x) :
    x = ⟨unpackSet ((p.content.drop (1 + 6 * i)).take 6), p.soundHead.active⟩ := by
  unfold Packet.soundSets at h
  rw [List.getElem?_map, Option.map_eq_some_iff] at h
  obtain ⟨j, at_i, e⟩ := h
  rw [List.getElem?_eq_some_iff] at at_i
  obtain ⟨_, at_i⟩ := at_i
  rw [List.getElem_range] at at_i
  rw [← e, at_i]

theorem getD_take_drop (l : List Word) {n k j : Nat} (h : j < k) : ((l.drop n).take k).getD j 0 = l.getD (n + j) 0 := by
  rw [List.getD_eq_getElem?_getD, List.getD_eq_getElem?_getD, List.getElem?_take_of_lt h, List.getElem?_drop]

/-- Settles O7: each field as a number, and each written packet found and unpacked again. -/
theorem writtenPacketsReadBack : Obligations.WrittenPacketsReadBack := by
  unfold Obligations.WrittenPacketsReadBack
  refine ⟨fun p => rfl, fun h => ⟨headerField_eq h, headerLength_eq h, classOf_eq h⟩, fun c f n => makeHeader_toNat,
    checksumOf_toNat, fun p => ?_, fun ps n lengths => scanLine_packets lengths n, fun q h sets count some few => ?_⟩
  · dsimp only
    have field : ∀ start len, ((p.content.getD 0 0).extractLsb' start len).toNat =
        (p.content.getD 0 0).toNat / 2 ^ start % 2 ^ len := toNat_extract _
    have word := (p.content.getD 0 0).isLt
    refine ⟨?_, field 9 3, rfl, field 6 2, rfl, fun i => ?_, soundSets_length p, fun i x found => ?_⟩
    · refine (field 12 4).trans ?_
      omega
    · show (Table.tab 4 _).get i = _
      rw [Table.get_tab, Nat.add_comm]
    · obtain rfl := soundSets_getElem found
      obtain ⟨u0, u1, u2, u3⟩ := unpackSet_get ((p.content.drop (1 + 6 * i)).take 6)
      simp only [getD_take_drop p.content (show 0 < 6 by decide), getD_take_drop p.content (show 1 < 6 by decide),
        getD_take_drop p.content (show 2 < 6 by decide), getD_take_drop p.content (show 3 < 6 by decide),
        getD_take_drop p.content (show 4 < 6 by decide), getD_take_drop p.content (show 5 < 6 by decide)] at u0 u1 u2 u3
      exact ⟨rfl, u0, u1, u2, u3⟩
  · dsimp only
    have head := makeSound_soundHead q h sets
    have length := makeSound_length q h few
    have contentLength : (makeSound q h sets).content.length = 1 + 6 * sets.length := by
      rw [makeSound_content, List.length_cons, List.length_flatMap, List.map_congr_left fun t _ => packSet_length t]
      simp
      omega
    refine ⟨makeSound_good q h sets, makeSound_class q h few, makeSound_quad q h few, length, contentLength.trans length.symm,
      ?_, head, soundWord_spare h, makeSound_soundSets q h sets count⟩
    unfold Packet.soundLengthAgrees
    rw [head, length, ← count]
    have either : sets.length = 1 ∨ sets.length = 2 := by omega
    rcases either with e | e <;> simp [e]

theorem truncatedPacket_of_quad {f : Feed} {w : Option Word} {q : Quad} (h : w.bind truncatedQuad? = some q) {s : State} :
    truncatedPacket f w s = if (s.fr.get f).state = .locked then report .packetMisplaced (.inputQuad f q) s else s := by
  rw [truncatedPacket, h]

theorem truncatedPacket_of_none {f : Feed} {w : Option Word} (h : w.bind truncatedQuad? = none) {s : State} :
    truncatedPacket f w s = s := by
  rw [truncatedPacket, h]

theorem truncatedQuad?_eq_some {h : Word} {q : Quad} (e : truncatedQuad? h = some q) : classOf h = .sound ∧ headerField h < 4 := by
  unfold truncatedQuad? at e
  split at e
  · split at e
    · exact ⟨‹_›, ‹_›⟩
    · cases e
  · cases e

/-- Settles O8: the scan stops at a packet that its line does not hold, and the truncated packet only reports. -/
theorem truncatedPacketEndsScan : Obligations.TruncatedPacketEndsScan := by
  unfold Obligations.TruncatedPacketEndsScan
  refine ⟨fun h rest short => scanLine_truncated short, fun f line control h s => ⟨fun q locked sound field => ?_, fun other => ?_⟩⟩
  · have notOff : (s.fr.get f).state ≠ .off := by rw [locked]; decide
    have quad : truncatedQuad? h = some q := by
      rw [truncatedQuad?, if_pos sound, dif_pos (by omega)]
      exact congrArg some (Fin.ext field)
    rw [takeScanned, if_neg notOff, truncatedPacket_of_quad (by rw [Option.bind_some, quad])]
    exact if_pos locked
  · refine keeps_ite (P := fun t => t = s) rfl ?_
    cases quad : (some h).bind truncatedQuad? with
    | none => exact truncatedPacket_of_none quad
    | some q =>
      refine (truncatedPacket_of_quad quad).trans (if_neg fun locked => ?_)
      obtain ⟨sound, named⟩ := truncatedQuad?_eq_some quad
      rcases other with notLocked | notSound | out
      · exact notLocked locked
      · exact notSound sound
      · omega

end Machine

end Sys2Proof
end

section
/-! PROOF. Rings and take points (R49 to R65): what a ring returns, which records a write event or an emission re-centres, and what a frame boundary makes of a record. -/

namespace Sys2Proof

namespace Machine

/-! ## Rings -/

theorem Ring.read_of_lt {g : Ring} {p : Nat} (h : p < g.written) : g.read p = g.store[g.written - 1 - p]? := if_pos h

theorem Ring.read_of_le {g : Ring} {p : Nat} (h : g.written ≤ p) : g.read p = none := if_neg (by omega)

/-- Settles O24: the set at position p stands as many places down the store as sets were written after it. -/
theorem ringReturnsWrittenSets : Obligations.RingReturnsWrittenSets := by
  unfold Obligations.RingReturnsWrittenSets
  refine ⟨⟨fun _ _ => rfl, fun _ => rfl⟩, fun g x wf => ⟨Ring.push_wf wf x, rfl, ?_, fun p old near => ?_, fun p far => ?_, fun p above => ?_⟩⟩
  · have newest : g.written < (g.push x).written := Nat.lt_succ_self g.written
    rw [Ring.read_of_lt newest]
    simp [Ring.push, Config.ringDepth]
  · have inside : p < (g.push x).written := Nat.lt_succ_of_lt old
    rw [Ring.read_of_lt inside, Ring.read_of_lt old]
    simp only [Ring.push, Config.ringDepth]
    obtain ⟨k, place⟩ : ∃ k, g.written - 1 - p = k := ⟨_, rfl⟩
    rw [show g.written + 1 - 1 - p = k + 1 by omega, place, List.getElem?_take_of_lt (by omega), List.getElem?_cons_succ]
  · have inside : p < (g.push x).written := Nat.lt_succ_of_le (by omega)
    rw [Ring.read_of_lt inside]
    refine List.getElem?_eq_none ((List.length_take_le _ _).trans ?_)
    simp only [Ring.push, Config.ringDepth]
    omega
  · exact Ring.read_of_le above

theorem Ring.store_pushes {g : Ring} (fits : g.store.length ≤ 8192) (sets : List SampleSet) :
    (sets.foldl Ring.push g).store = (sets.reverse ++ g.store).take 8192 := by
  induction sets generalizing g with
  | nil => exact (List.take_of_length_le fits).symm
  | cons x sets ih =>
    have short : (g.push x).store.length ≤ 8192 := List.length_take_le _ _
    rw [List.foldl_cons, ih short, List.reverse_cons, List.append_assoc, List.singleton_append]
    simp only [Ring.push, Config.ringDepth]
    rw [List.take_append, List.take_append, List.take_take, Nat.min_eq_left (Nat.sub_le _ _)]

/-! ## Walks that re-centre records (R59, R61, R62) -/

/-- A record re-centres where its state and the written count of its ring ask for it. -/
def recentreIf (c : TakePoint → Nat → Bool) (i : RecordNo) (s : State) : State :=
  if c (s.tpt.get i) (s.rings.get (s.tpt.get i).ring).written then recentre i s else s

/-- A write on ring r asks a record to re-centre (R62). -/
def overrun (r : RingNo) (tp : TakePoint) (written : Nat) : Bool :=
  decide (tp.state = .running ∧ tp.ring = r ∧ 2048 ≤ written - tp.take)

/-- An emission of domain d asks a record to re-centre (R59). -/
def underrun (d : Domain) (tp : TakePoint) (written : Nat) : Bool :=
  decide (tp.state = .running ∧ tp.domain = d ∧ written - tp.take = 0)

theorem overrunRecord_eq_recentreIf (r : RingNo) : overrunRecord r = recentreIf (overrun r) := by
  funext i s
  simp only [recentreIf, overrun, decide_eq_true_eq]
  rfl

theorem underrunRecord_eq_recentreIf (d : Domain) : underrunRecord d = recentreIf (underrun d) := by
  funext i s
  simp only [recentreIf, underrun, decide_eq_true_eq]
  rfl

section
variable (c : TakePoint → Nat → Bool)

theorem recentreIf_rings (i : RecordNo) (s : State) : (recentreIf c i s).rings = s.rings :=
  keeps_ite (P := fun t => t.rings = s.rings) (recentre_rings i s) rfl

theorem recentreIf_get_other {i j : RecordNo} (h : i ≠ j) (s : State) : (recentreIf c i s).tpt.get j = s.tpt.get j := by
  unfold recentreIf
  split
  · rw [recentre_tpt, Table.get_set_other _ _ _ _ h]
  · rfl

theorem recentreIf_get_same (i : RecordNo) (s : State) : (recentreIf c i s).tpt.get i =
    if c (s.tpt.get i) (s.rings.get (s.tpt.get i).ring).written then
      (s.tpt.get i).recentred (s.rings.get (s.tpt.get i).ring).written else s.tpt.get i := by
  unfold recentreIf
  split
  · rw [recentre_tpt, Table.get_set_same]
  · rfl

theorem recentreIf_none {i : RecordNo} {s : State} (h : c (s.tpt.get i) (s.rings.get (s.tpt.get i).ring).written = false) :
    recentreIf c i s = s := if_neg (by rw [h]; simp)

/-- What a walk over some of the records leaves of each. -/
theorem walk_recentreIf_get {l : List RecordNo} (nodup : l.Nodup) (i : RecordNo) (s : State) :
    (walk l (recentreIf c) s).tpt.get i =
      if i ∈ l ∧ c (s.tpt.get i) (s.rings.get (s.tpt.get i).ring).written then
        (s.tpt.get i).recentred (s.rings.get (s.tpt.get i).ring).written else s.tpt.get i := by
  induction l generalizing s with
  | nil => simp [walk_nil]
  | cons k l ih =>
    obtain ⟨apart, nodup⟩ := List.nodup_cons.1 nodup
    rw [walk_cons, ih nodup]
    by_cases same : k = i
    · subst same
      rw [if_neg (fun h => apart h.1), recentreIf_get_same]
      simp
    · rw [recentreIf_get_other c same, recentreIf_rings]
      simp [Ne.symm same]

theorem walk_recentreIf_none {l : List RecordNo} {s : State}
    (h : ∀ i, c (s.tpt.get i) (s.rings.get (s.tpt.get i).ring).written = false) : walk l (recentreIf c) s = s := by
  induction l with
  | nil => rfl
  | cons k l ih => rw [walk_cons, recentreIf_none c (h k), ih]

theorem recentreIf_tells_mono (reason : Reason) (src : FaultSource) (i : RecordNo) (s : State)
    (told : s.log.tells reason src = true) : (recentreIf c i s).log.tells reason src = true := by
  unfold recentreIf
  split
  · exact report_tells_mono _ _ (s.setTpt _) told
  · exact told

/-- A record that a walk re-centres is told of (R61). -/
theorem walk_recentreIf_tells {l : List RecordNo} {i : RecordNo} (mem : i ∈ l) (nodup : l.Nodup) {s : State}
    (h : c (s.tpt.get i) (s.rings.get (s.tpt.get i).ring).written = true) :
    (walk l (recentreIf c) s).log.tells .ringRecentre (.takePoint (s.tpt.get i).ring (s.tpt.get i).domain) = true := by
  have later : ∀ (src : FaultSource) (l : List RecordNo) (s : State), s.log.tells .ringRecentre src = true →
      (walk l (recentreIf c) s).log.tells .ringRecentre src = true := fun src l s told =>
    keeps_walk (P := fun s => s.log.tells .ringRecentre src = true) (recentreIf_tells_mono c _ src) l s told
  induction l generalizing s with
  | nil => cases mem
  | cons k l ih =>
    obtain ⟨apart, nodup⟩ := List.nodup_cons.1 nodup
    rw [walk_cons]
    by_cases same : k = i
    · subst same
      refine later _ l _ ?_
      rw [recentreIf, if_pos h]
      exact report_tells _ _ _
    · have rest : i ∈ l := (List.mem_cons.1 mem).resolve_left (Ne.symm same)
      have := ih rest nodup (s := recentreIf c k s) (by rw [recentreIf_get_other c same, recentreIf_rings]; exact h)
      rw [recentreIf_get_other c same] at this
      exact this

end

/-! ## Write events -/

theorem writeEvent_eq (r : RingNo) (sets : List SampleSet) (s : State) : writeEvent r sets s =
    walk (List.finRange 64) (recentreIf (overrun r)) (s.setRing r (sets.foldl Ring.push (s.rings.get r))) := by
  rw [← overrunRecord_eq_recentreIf]
  rfl

theorem writeEvent_written (r : RingNo) (sets : List SampleSet) (s : State) :
    ((writeEvent r sets s).rings.get r).written = (s.rings.get r).written + sets.length := by
  rw [writeEvent_rings, Table.get_set_same, Ring.written_pushes]

/-- What a write event leaves of a record. -/
theorem writeEvent_get (r : RingNo) (sets : List SampleSet) (i : RecordNo) (s : State) :
    (writeEvent r sets s).tpt.get i =
      if overrun r (s.tpt.get i) ((s.rings.get r).written + sets.length) then
        (s.tpt.get i).recentred ((s.rings.get r).written + sets.length) else s.tpt.get i := by
  rw [writeEvent_eq, walk_recentreIf_get _ (List.nodup_finRange 64)]
  simp only [State.setRing_fields, List.mem_finRange, true_and]
  by_cases on : (s.tpt.get i).ring = r
  · rw [on, Table.get_set_same, Ring.written_pushes]
  · simp [overrun, on]

/-- A write event on a ring without a RUNNING record only writes. -/
theorem writeEvent_of_none_runs {r : RingNo} {s : State} (h : ∀ i, (s.tpt.get i).ring = r → (s.tpt.get i).state ≠ .running)
    (sets : List SampleSet) : writeEvent r sets s = s.setRing r (sets.foldl Ring.push (s.rings.get r)) := by
  rw [writeEvent_eq]
  refine walk_recentreIf_none _ fun i => decide_eq_false fun ⟨running, on, _⟩ => h i on running

/-- Settles O28: the walk of a write event re-centres the records it overruns, and those alone. -/
theorem writeOverrunsRecords : Obligations.WriteOverrunsRecords := by
  unfold Obligations.WriteOverrunsRecords
  intro r sets i s
  dsimp only
  have get := writeEvent_get r sets i s
  refine ⟨writeEvent_written r sets s, fun on running far => ?_, fun near => ?_⟩
  · have overruns : overrun r (s.tpt.get i) ((s.rings.get r).written + sets.length) = true := decide_eq_true ⟨running, on, far⟩
    refine ⟨get.trans (if_pos overruns), ?_⟩
    rw [← on] at overruns ⊢
    rw [writeEvent_eq]
    refine walk_recentreIf_tells _ (List.mem_finRange i) (List.nodup_finRange 64) ?_
    simp only [State.setRing_fields, Table.get_set_same, Ring.written_pushes]
    exact overruns
  · refine get.trans (if_neg ?_)
    simp only [overrun, decide_eq_true_eq]
    rintro ⟨running, on, far⟩
    rcases near with off | halts | near
    · exact off on
    · exact halts running
    · omega

/-! ## Frame boundaries -/

theorem ringFed_feedRing (s : State) (f : Feed) (q : Quad) : ringFed s (feedRing f q) = true ↔
    (s.fr.get f).state = .locked ∧ ((s.fr.get f).quads.get q).state ≠ .absent := by
  have feed : (feedRing f q).val / 4 = f.val := by
    simp only [feedRing]
    omega
  have quad : (feedRing f q).val % 4 = q.val := by
    simp only [feedRing]
    omega
  unfold ringFed
  rw [dif_pos (by omega)]
  simp only [feed, quad, Bool.and_eq_true, beq_iff_eq, bne_iff_ne]

theorem ringFed_lineRing (s : State) (n : LineQuad) : ringFed s (lineRing n) = true := by
  unfold ringFed
  rw [dif_neg]
  simp only [lineRing]
  omega

theorem judgeTakePoints_get (d : Domain) (i : RecordNo) (s : State) : (judgeTakePoints d s).tpt.get i =
    if (s.tpt.get i).domain = d then judgedAtBoundary s (s.tpt.get i) else s.tpt.get i := Table.get_map _ _ _

/-- Settles O26: a case for each state of the record. -/
theorem takePointsJudgedAtBoundary : Obligations.TakePointsJudgedAtBoundary := by
  unfold Obligations.TakePointsJudgedAtBoundary
  refine ⟨fun s => ⟨ringFed_feedRing s, ringFed_lineRing s⟩, fun d i s => ?_⟩
  dsimp only
  rw [judgeTakePoints_get]
  refine ⟨rfl, fun still => ?_, fun on running => ?_, fun on filling => ?_⟩
  · rcases still with off | free | starved
    · rw [if_neg off]
    · rw [judgedAtBoundary, free]
      exact ite_self _
    · rw [judgedAtBoundary, starved]
      exact ite_self _
  · rw [if_pos on, judgedAtBoundary, running]
    simp only [Config.windowHigh, Config.windowLow, occupancy]
    exact ⟨fun high => if_pos high, fun low => (if_neg (by omega)).trans (if_pos low),
      fun low high => (if_neg (by omega)).trans (if_neg (by omega))⟩
  · rw [if_pos on, judgedAtBoundary, filling]
    simp only [Config.centre]
    refine ⟨fun fed full => if_pos ⟨fed, full⟩, fun short => if_neg fun ⟨fed, full⟩ => ?_⟩
    rcases short with unfed | short
    · rw [unfed] at fed
      cases fed
    · omega

end Machine

end Sys2Proof
end

section
/-! PROOF. References, ramps and emissions (R56, R58, R59, R104, R121, R127, R130): what a walk over ramps releases, and what an emission leaves of every block. -/

namespace Sys2Proof

namespace Machine

/-! ## Numbers of domains and destinations -/

@[simp] theorem domainFeed?_feedDomain (f : Feed) : domainFeed? (feedDomain f) = some f := dif_pos f.isLt

/-- The destinations of a domain in ascending order. -/
def domainDests (d : Domain) : List Dest := (List.finRange 16).map (domainDest d)

theorem domainDest_injective (d : Domain) : Function.Injective (domainDest d) := fun a b same => by
  have := congrArg Fin.val same
  simp only [domainDest] at this
  omega

theorem domainDests_nodup (d : Domain) : (domainDests d).Nodup := (List.nodup_finRange 16).map (domainDest_injective d)

theorem mem_domainDests (d : Domain) (x : Dest) : x ∈ domainDests d ↔ destDomain x = d := by
  rw [domainDests, List.mem_map]
  constructor
  · rintro ⟨k, -, rfl⟩
    exact destDomain_domainDest d k
  · intro on
    refine ⟨⟨x.val % 16, by omega⟩, List.mem_finRange _, Fin.ext ?_⟩
    have := congrArg Fin.val on
    simp only [destDomain] at this
    simp only [domainDest]
    omega

theorem filter_destDomain (d : Domain) : ((List.finRange 144).filter fun x => destDomain x = d).Perm (domainDests d) := by
  refine (List.perm_ext_iff_of_nodup ((List.nodup_finRange 144).filter _) (domainDests_nodup d)).2 fun x => ?_
  rw [mem_domainDests, List.mem_filter]
  simp

/-! ## References -/

/-- How often pairs name the record, by its ring and domain; a FREE record is named by none. -/
def TakePoint.named (tp : TakePoint) (pairs : List (RingNo × Domain)) : Nat :=
  if tp.state = .free then 0 else pairs.count (tp.ring, tp.domain)

/-- The table with a reference dropped for each of the pairs (R56). -/
def dropAll (pairs : List (RingNo × Domain)) (t : Table 64 TakePoint) : Table 64 TakePoint :=
  pairs.foldl (fun t p => dropReference p t) t

theorem named_cons (tp : TakePoint) (p : RingNo × Domain) (pairs : List (RingNo × Domain)) :
    tp.named (p :: pairs) = tp.named pairs + if tp.holds p then 1 else 0 := by
  have holds := TakePoint.holds_iff tp p
  unfold TakePoint.named
  by_cases free : tp.state = .free
  · have not : tp.holds p = false := by
      rw [← Bool.not_eq_true, holds]
      exact fun h => h.1 free
    simp [free, not]
  · rw [if_neg free, if_neg free, List.count_cons]
    congr 1
    by_cases same : p = (tp.ring, tp.domain)
    · subst same
      simp [holds.2 ⟨free, rfl⟩]
    · have not : tp.holds p = false := by
        rw [← Bool.not_eq_true, holds]
        exact fun h => same h.2.symm
      simp [same, not]

theorem dropAll_get (pairs : List (RingNo × Domain)) (t : Table 64 TakePoint) (i : RecordNo) :
    (dropAll pairs t).get i = { t.get i with references := (t.get i).references - (t.get i).named pairs } := by
  induction pairs generalizing t with
  | nil => simp [dropAll, TakePoint.named]
  | cons p pairs ih =>
    have dropped : (dropReference p t).get i =
        if (t.get i).holds p then { t.get i with references := (t.get i).references - 1 } else t.get i := Table.get_map _ _ _
    have step : dropAll (p :: pairs) t = dropAll pairs (dropReference p t) := rfl
    rw [step, ih, dropped, named_cons]
    split
    · rename_i holds
      have same : ({ t.get i with references := (t.get i).references - 1 } : TakePoint).named pairs = (t.get i).named pairs := rfl
      rw [same, Nat.sub_sub, Nat.add_comm]
    · rw [Nat.add_zero]

theorem dropAll_append (a b : List (RingNo × Domain)) (t : Table 64 TakePoint) :
    dropAll (a ++ b) t = dropAll b (dropAll a t) := List.foldl_append

/-! ## Ramps -/

/-- A ramp after an emission, or none when it ends (R127). -/
def Ramp.next (r : Ramp) : Option Ramp :=
  if r.length ≤ r.progress + 1 then none else some { r with progress := r.progress + 1 }

/-- The pairs that a destination releases where its ramp ends by this rule. -/
def released (next : Ramp → Option Ramp) (x : Dest) (r : Option Ramp) : List (RingNo × Domain) :=
  r.elim [] fun r => if (next r).isNone then entryPairs r.old (destDomain x) else []

/-- The ramp of a destination moves by a rule, and what it releases when it ends is dropped. -/
def moveRamp (next : Ramp → Option Ramp) (x : Dest) (s : State) : State :=
  (s.setTpt (dropAll (released next x (s.ramps.get x)) s.tpt)).setRamp x ((s.ramps.get x).bind next)

theorem setRamp_get (s : State) (x : Dest) : s.setRamp x (s.ramps.get x) = s := by
  rw [State.setRamp, Table.set_get]

theorem moveRamp_of_none {next : Ramp → Option Ramp} {x : Dest} {s : State} (h : s.ramps.get x = none) : moveRamp next x s = s := by
  have same := setRamp_get s x
  rw [h] at same
  rw [moveRamp, h]
  exact same

theorem endRamp_eq_moveRamp (x : Dest) (s : State) : endRamp x s = moveRamp (fun _ => none) x s := by
  cases h : s.ramps.get x with
  | none => rw [moveRamp_of_none h, endRamp, h]
  | some r =>
    rw [endRamp, moveRamp, h]
    rfl

theorem advanceRamp_eq_moveRamp (x : Dest) (s : State) : advanceRamp x s = moveRamp Ramp.next x s := by
  cases h : s.ramps.get x with
  | none => rw [moveRamp_of_none h, advanceRamp, h]
  | some r =>
    rw [moveRamp, h, Option.bind_some, released, Option.elim_some, advanceRamp, h]
    dsimp only
    unfold Ramp.next
    split
    · rw [endRamp, h]
      rfl
    · rfl

section
variable (next : Ramp → Option Ramp)

theorem moveRamp_ramps (x y : Dest) (s : State) :
    (moveRamp next x s).ramps.get y = if x = y then (s.ramps.get y).bind next else s.ramps.get y := by
  simp only [moveRamp, State.setRamp_fields, State.setTpt_fields, Table.get_set]
  split
  · rename_i same
    rw [same]
  · rfl

theorem walk_moveRamp_ramps {l : List Dest} (nodup : l.Nodup) (y : Dest) (s : State) :
    (walk l (moveRamp next) s).ramps.get y = if y ∈ l then (s.ramps.get y).bind next else s.ramps.get y := by
  induction l generalizing s with
  | nil => simp [walk_nil]
  | cons x l ih =>
    obtain ⟨apart, nodup⟩ := List.nodup_cons.1 nodup
    rw [walk_cons, ih nodup, moveRamp_ramps]
    by_cases same : x = y
    · subst same
      simp [apart]
    · simp [same, Ne.symm same]

theorem walk_moveRamp_tpt {l : List Dest} (nodup : l.Nodup) (s : State) :
    (walk l (moveRamp next) s).tpt = dropAll (l.flatMap fun x => released next x (s.ramps.get x)) s.tpt := by
  induction l generalizing s with
  | nil => rfl
  | cons x l ih =>
    obtain ⟨apart, nodup⟩ := List.nodup_cons.1 nodup
    rw [walk_cons, ih nodup, List.flatMap_cons, dropAll_append]
    congr 1
    refine List.flatMap_congr fun y mem => ?_
    have other : x ≠ y := fun same => apart (same ▸ mem)
    rw [moveRamp_ramps, if_neg other]

end

/-- What the ramps of a domain release where they end by this rule. -/
def releasedIn (next : Ramp → Option Ramp) (d : Domain) (s : State) : List (RingNo × Domain) :=
  (domainDests d).flatMap fun x => released next x (s.ramps.get x)

theorem walk_endRamp (d : Domain) (s : State) :
    walk ((List.finRange 16).map (domainDest d)) endRamp s = walk (domainDests d) (moveRamp fun _ => none) s := by
  rw [show endRamp = moveRamp fun _ => none from funext fun x => funext fun s => endRamp_eq_moveRamp x s]
  rfl

theorem walk_advanceRamp (d : Domain) (s : State) :
    walk ((List.finRange 16).map (domainDest d)) advanceRamp s = walk (domainDests d) (moveRamp Ramp.next) s := by
  rw [show advanceRamp = moveRamp Ramp.next from funext fun x => funext fun s => advanceRamp_eq_moveRamp x s]
  rfl

theorem advanceRamps_ramps (d : Domain) (x : Dest) (s : State) : (advanceRamps d s).ramps.get x =
    if destDomain x = d then (s.ramps.get x).bind Ramp.next else s.ramps.get x := by
  unfold advanceRamps
  dsimp only
  rw [walk_advanceRamp]
  simp only [State.setTpt_fields, walk_moveRamp_ramps _ (domainDests_nodup d), mem_domainDests]

theorem endRamps_ramps (d : Domain) (x : Dest) (s : State) : (endRamps d s).ramps.get x =
    if destDomain x = d then none else s.ramps.get x := by
  unfold endRamps
  dsimp only
  rw [walk_endRamp]
  simp only [State.setTpt_fields, walk_moveRamp_ramps _ (domainDests_nodup d), mem_domainDests, Option.bind_fun_none]

theorem advanceRamps_tpt (d : Domain) (s : State) :
    (advanceRamps d s).tpt = freeUnused d (dropAll (releasedIn Ramp.next d s) s.tpt) := by
  unfold advanceRamps
  dsimp only
  rw [walk_advanceRamp]
  exact congrArg (freeUnused d) (walk_moveRamp_tpt _ (domainDests_nodup d) s)

theorem endRamps_tpt (d : Domain) (s : State) :
    (endRamps d s).tpt = freeUnused d (dropAll (releasedIn (fun _ => none) d s) s.tpt) := by
  unfold endRamps
  dsimp only
  rw [walk_endRamp]
  exact congrArg (freeUnused d) (walk_moveRamp_tpt _ (domainDests_nodup d) s)

theorem freeUnused_get (d : Domain) (t : Table 64 TakePoint) (i : RecordNo) :
    (freeUnused d t).get i = if (t.get i).domain = d then (t.get i).freedIfUnused else t.get i := Table.get_map _ _ _

/-! ## What the Mixer reads (R120 to R132) -/

/-- The Mixer reads the same in both states. -/
structure SameMix (s t : State) : Prop where
  rings : t.rings = s.rings
  tpt : t.tpt = s.tpt
  active : t.active = s.active
  ramps : t.ramps = s.ramps

section
variable {s t : State} (h : SameMix s t)
include h

theorem fetch_congr (d : Domain) (delay : Nat) (src : Source) : fetch t d delay src = fetch s d delay src := by
  unfold fetch recordOf? setRead
  rw [h.tpt, h.rings]

theorem scaledValue_congr (d : Domain) (e : Entry) : scaledValue t d e = scaledValue s d e := by
  unfold scaledValue wideValue
  simp only [fetch_congr h]

theorem preSaturation_congr (x : Dest) : preSaturation t x = preSaturation s x := by
  unfold preSaturation
  rw [h.active, h.ramps]
  simp only [scaledValue_congr h]

theorem mixValue_congr (x : Dest) : mixValue t x = mixValue s x := by
  unfold mixValue is20
  rw [preSaturation_congr h, h.active]

theorem clips_congr (x : Dest) : clips t x = clips s x := by
  unfold clips
  rw [preSaturation_congr h, h.active]

theorem emittedValues_congr (d : Domain) : emittedValues t d = emittedValues s d := by
  unfold emittedValues
  rw [h.active]
  simp only [mixValue_congr h]

end

theorem saturate_ne_iff (x : Int) : saturate x ≠ x ↔ x < -8388608 ∨ 8388607 < x := by
  unfold saturate Config.sampleMin Config.sampleMax
  omega

/-! ## Emissions -/

theorem compareChecked_tells_mono {reason : Reason} {src : FaultSource} (d : Domain) (v : Dest → Int) {s : State}
    (told : s.log.tells reason src = true) : (compareChecked d v s).log.tells reason src = true := by
  unfold compareChecked
  dsimp only
  split
  · exact told
  · split
    · exact report_tells_mono _ _ (s.setRound d _) told
    · exact told

theorem sameMix_chooseChecked (d : Domain) (s : State) : SameMix s (chooseChecked d s) :=
  have k := frame_chooseChecked s d
  ⟨k.rings rfl, k.tpt rfl, k.active rfl, k.ramps rfl⟩

/-- What an emission of domain d does between its reads and the advance of the takes. -/
def emissionRead (d : Domain) (s : State) : State :=
  markClips d (compareChecked d (fun x => (emittedValues (chooseChecked d s) d).get ⟨x.val % 16, Nat.mod_lt _ (by decide)⟩)
    (chooseChecked d s))

theorem frame_emissionRead (d : Domain) (s : State) :
    Frame { cm := true, log := true, mgmt := true, clips := true } s (emissionRead d s) := frame_emissionReads d _ s

theorem emission_eq (d : Domain) (s : State) : emission d s = emitTo d (toSamples (emittedValues (underruns d s) d))
    (advanceRamps d (advanceTakes d (emissionRead d (underruns d s)))) := by
  rw [← emittedValues_congr (sameMix_chooseChecked d (underruns d s)) d]
  rfl

theorem emissionRead_clips (d : Domain) (x : Dest) (s : State) :
    (emissionRead d s).clips.get x = (s.clips.get x || (destDomain x == d && clips s x)) := by
  unfold emissionRead markClips
  have k := (frame_chooseChecked s d).mono.trans
    (frame_compareChecked (chooseChecked d s) d fun x => (emittedValues (chooseChecked d s) d).get ⟨x.val % 16, Nat.mod_lt _ (by decide)⟩)
  generalize compareChecked d _ (chooseChecked d s) = u at *
  have same : SameMix s u := ⟨k.rings rfl, k.tpt rfl, k.active rfl, k.ramps rfl⟩
  simp only [State.setClips_fields, Table.get_tab, clips_congr same, k.clips rfl]

theorem emissionRead_tells_mono {reason : Reason} {src : FaultSource} (d : Domain) {s : State}
    (told : s.log.tells reason src = true) : (emissionRead d s).log.tells reason src = true := by
  refine compareChecked_tells_mono d _ ?_
  rw [(frame_chooseChecked s d).log rfl]
  exact told

theorem underruns_eq (d : Domain) (s : State) : underruns d s = walk (List.finRange 64) (recentreIf (underrun d)) s := by
  rw [← underrunRecord_eq_recentreIf]
  rfl

theorem underruns_get (d : Domain) (i : RecordNo) (s : State) : (underruns d s).tpt.get i =
    if underrun d (s.tpt.get i) (s.rings.get (s.tpt.get i).ring).written then
      (s.tpt.get i).recentred (s.rings.get (s.tpt.get i).ring).written else s.tpt.get i := by
  rw [underruns_eq, walk_recentreIf_get _ (List.nodup_finRange 64)]
  simp

/-- The record after the underruns and the advance of the takes (R58, R59). -/
def advancedTake (d : Domain) (written : Nat) (tp : TakePoint) : TakePoint :=
  if tp.state = .running ∧ tp.domain = d then
    { tp with
      take := (if written ≤ tp.take then written - 96 else tp.take) + 1
      recentres := if written ≤ tp.take then tp.recentres + 1 else tp.recentres }
  else tp

theorem advanceTakes_get (d : Domain) (i : RecordNo) (s : State) : (advanceTakes d s).tpt.get i =
    if (s.tpt.get i).state = .running ∧ (s.tpt.get i).domain = d then { s.tpt.get i with take := (s.tpt.get i).take + 1 }
    else s.tpt.get i := Table.get_map _ _ _

theorem emission_advanced (d : Domain) (i : RecordNo) (s : State) :
    (advanceTakes d (emissionRead d (underruns d s))).tpt.get i =
      advancedTake d (s.rings.get (s.tpt.get i).ring).written (s.tpt.get i) := by
  rw [advanceTakes_get, (frame_emissionRead d _).tpt rfl, underruns_get]
  unfold advancedTake
  by_cases runs : (s.tpt.get i).state = .running ∧ (s.tpt.get i).domain = d
  · rw [if_pos runs]
    by_cases empty : (s.rings.get (s.tpt.get i).ring).written ≤ (s.tpt.get i).take
    · have due : underrun d (s.tpt.get i) (s.rings.get (s.tpt.get i).ring).written = true :=
        decide_eq_true ⟨runs.1, runs.2, by omega⟩
      rw [if_pos due, if_pos empty, if_pos empty]
      exact if_pos runs
    · have notDue : underrun d (s.tpt.get i) (s.rings.get (s.tpt.get i).ring).written ≠ true := fun due => by
        have := (of_decide_eq_true due).2.2
        omega
      rw [if_neg notDue, if_neg empty, if_neg empty, if_pos runs]
  · have notDue : underrun d (s.tpt.get i) (s.rings.get (s.tpt.get i).ring).written ≠ true := fun due =>
      have asked := of_decide_eq_true due
      runs ⟨asked.1, asked.2.1⟩
    rw [if_neg notDue, if_neg runs, if_neg runs]

/-- What an emission leaves of a record. -/
theorem emission_get (d : Domain) (i : RecordNo) (s : State) : (emission d s).tpt.get i =
    let tp := advancedTake d (s.rings.get (s.tpt.get i).ring).written (s.tpt.get i)
    let left : TakePoint := { tp with references := tp.references - tp.named (releasedIn Ramp.next d s) }
    if tp.domain = d then left.freedIfUnused else left := by
  have ramps : (advanceTakes d (emissionRead d (underruns d s))).ramps = s.ramps :=
    ((frame_advanceTakes _ d).ramps rfl).trans (((frame_emissionRead d _).ramps rfl).trans ((frame_underruns s d).ramps rfl))
  have same : releasedIn Ramp.next d (advanceTakes d (emissionRead d (underruns d s))) = releasedIn Ramp.next d s := by
    unfold releasedIn
    rw [ramps]
  rw [emission_eq, (frame_emitTo _ d _).tpt rfl, advanceRamps_tpt, freeUnused_get, dropAll_get, same, emission_advanced]

theorem advancedTake_keeps (d : Domain) (w : Nat) (tp : TakePoint) : let tp' := advancedTake d w tp
    tp'.ring = tp.ring ∧ tp'.domain = tp.domain ∧ tp'.state = tp.state ∧ tp'.references = tp.references ∧
      tp'.reserved = tp.reserved := by
  unfold advancedTake
  dsimp only
  split <;> exact ⟨rfl, rfl, rfl, rfl, rfl⟩

theorem advancedTake_named (d : Domain) (w : Nat) (tp : TakePoint) (pairs : List (RingNo × Domain)) :
    (advancedTake d w tp).named pairs = tp.named pairs := by
  obtain ⟨ring, domain, state, -, -⟩ := advancedTake_keeps d w tp
  rw [TakePoint.named, ring, domain, state]
  rfl

/-- A released pair is of the domain that releases it. -/
theorem releasedIn_domain {next : Ramp → Option Ramp} {d : Domain} {s : State} {p : RingNo × Domain}
    (h : p ∈ releasedIn next d s) : p.2 = d := by
  rw [releasedIn, List.mem_flatMap] at h
  obtain ⟨x, on, h⟩ := h
  rw [mem_domainDests] at on
  unfold released at h
  cases ramp : s.ramps.get x with
  | none => simp [ramp] at h
  | some r =>
    rw [ramp, Option.elim_some] at h
    split at h
    · exact (entryPairs_domain h).trans on
    · cases h

theorem named_of_other {tp : TakePoint} {d : Domain} {pairs : List (RingNo × Domain)} (h : tp.domain ≠ d)
    (on : ∀ p ∈ pairs, p.2 = d) : tp.named pairs = 0 := by
  unfold TakePoint.named
  split
  · rfl
  · exact List.count_eq_zero.2 fun mem => h (on _ mem)

theorem TakePoint.freedIfUnused_of_free {tp : TakePoint} (h : tp.state = .free) : tp.freedIfUnused = tp := by
  obtain ⟨-, -, e⟩ | ⟨-, e⟩ := tp.freedIfUnused_cases
  · rw [e, ← h]
  · exact e

/-- A record of another domain, or a FREE one, is as it was after an emission. -/
theorem emission_get_other {d : Domain} {i : RecordNo} {s : State} (h : (s.tpt.get i).domain ≠ d ∨ (s.tpt.get i).state = .free) :
    (emission d s).tpt.get i = s.tpt.get i := by
  have still : advancedTake d (s.rings.get (s.tpt.get i).ring).written (s.tpt.get i) = s.tpt.get i := by
    refine if_neg fun ⟨running, on⟩ => ?_
    rcases h with off | free
    · exact off on
    · rw [free] at running
      cases running
  have unnamed : (s.tpt.get i).named (releasedIn Ramp.next d s) = 0 := by
    rcases h with off | free
    · exact named_of_other off fun p => releasedIn_domain
    · exact if_pos free
  rw [emission_get]
  dsimp only
  rw [still, unnamed, Nat.sub_zero]
  rcases h with off | free
  · rw [if_neg off]
  · split
    · exact TakePoint.freedIfUnused_of_free free
    · rfl

theorem toSamples_get (v : Table 16 Int) (k : Fin 16) : (toSamples v).get k = BitVec.ofInt 24 (v.get k) := Table.get_map _ _ _

theorem toSamples_emittedValues (s : State) (d : Domain) : toSamples (emittedValues s d) =
    Table.tab 16 fun k => if carriedIn s.active (domainDest d k) then BitVec.ofInt 24 (mixValue s (domainDest d k)) else 0 := by
  refine Table.ext_get fun k => ?_
  rw [toSamples_get, emittedValues, Table.get_tab, Table.get_tab]
  split <;> rfl

theorem carriedIn_line (b : Bank) (l : Fin 16) : carriedIn b (domainDest domain8 l) = true := by
  have line : destQuad? (domainDest domain8 l) = none := dif_neg (by simp only [domainDest, domain8, Fin.isValue]; omega)
  rw [carriedIn, line]

theorem emission_beside (d : Domain) (s : State) :
    Frame { cm := true, log := true, mgmt := true, clips := true, tpt := true, ramps := true } s
      (advanceRamps d (advanceTakes d (emissionRead d (underruns d s)))) :=
  ((frame_underruns s d).mono.trans (frame_emissionRead d _).mono).trans
    ((frame_advanceTakes _ d).mono.trans (frame_advanceRamps _ d).mono)

/-- The values of an emission of a feed domain go to its OF (R121). -/
theorem emission_feed (f : Feed) (s : State) : let d := feedDomain f
    (emission d s).lineOut = s.lineOut ∧ (emission d s).fmt = s.fmt.set f { s.fmt.get f with
      sets := (s.fmt.get f).sets ++ [toSamples (emittedValues (underruns d s) d)] } := by
  have k := emission_beside (feedDomain f) s
  dsimp only
  rw [emission_eq, emitTo, domainFeed?_feedDomain]
  dsimp only
  rw [State.setFmt, k.fmt rfl, k.lineOut rfl]
  exact ⟨rfl, rfl⟩

/-- The values of an emission of domain 8 go to the LP (R121, R133). -/
theorem emission_line (s : State) :
    (emission domain8 s).fmt = s.fmt ∧ (emission domain8 s).lineOut = toSamples (emittedValues (underruns domain8 s) domain8) := by
  have k := emission_beside domain8 s
  rw [emission_eq]
  generalize advanceRamps domain8 _ = u at k ⊢
  generalize toSamples _ = v
  exact ⟨k.fmt rfl, rfl⟩

theorem emission_clips (d : Domain) (x : Dest) (s : State) :
    (emission d s).clips.get x = (s.clips.get x || (destDomain x == d && clips (underruns d s) x)) := by
  have clips : (emission d s).clips = (emissionRead d (underruns d s)).clips := by
    rw [emission_eq, (frame_emitTo _ d _).clips rfl, (frame_advanceRamps _ d).clips rfl, (frame_advanceTakes _ d).clips rfl]
  rw [clips, emissionRead_clips, (frame_underruns s d).clips rfl]

theorem emission_ramps (d : Domain) (x : Dest) (s : State) :
    (emission d s).ramps.get x = if destDomain x = d then (s.ramps.get x).bind Ramp.next else s.ramps.get x := by
  have ramps : (advanceTakes d (emissionRead d (underruns d s))).ramps = s.ramps :=
    ((frame_advanceTakes _ d).ramps rfl).trans (((frame_emissionRead d _).ramps rfl).trans ((frame_underruns s d).ramps rfl))
  rw [emission_eq, (frame_emitTo _ d _).ramps rfl, advanceRamps_ramps, ramps]

/-- A record that an emission finds at occupancy 0 is told of (R59, R61). -/
theorem emission_tells {d : Domain} {i : RecordNo} {s : State} (running : (s.tpt.get i).state = .running)
    (on : (s.tpt.get i).domain = d) (empty : (s.rings.get (s.tpt.get i).ring).written ≤ (s.tpt.get i).take) :
    (emission d s).log.tells .ringRecentre (.takePoint (s.tpt.get i).ring (s.tpt.get i).domain) = true := by
  have log : (emission d s).log = (emissionRead d (underruns d s)).log := by
    rw [emission_eq, (frame_emitTo _ d _).log rfl, (frame_advanceRamps _ d).log rfl, (frame_advanceTakes _ d).log rfl]
  rw [log]
  refine emissionRead_tells_mono d ?_
  rw [underruns_eq]
  exact walk_recentreIf_tells _ (List.mem_finRange i) (List.nodup_finRange 64) (decide_eq_true ⟨running, on, by omega⟩)

theorem TakePoint.freedIfUnused_state (tp : TakePoint) :
    tp.freedIfUnused.state = if tp.references = 0 ∧ tp.reserved = false then .free else tp.state := by
  unfold TakePoint.freedIfUnused
  split <;> rfl

theorem TakePoint.freedIfUnused_rest (tp : TakePoint) : tp.freedIfUnused = { tp with state := tp.freedIfUnused.state } := by
  unfold TakePoint.freedIfUnused
  split <;> rfl

/-- The take and the re-centres of a record after an emission. -/
theorem emission_get_takes (d : Domain) (i : RecordNo) (s : State) :
    let moved := advancedTake d (s.rings.get (s.tpt.get i).ring).written (s.tpt.get i)
    ((emission d s).tpt.get i).take = moved.take ∧ ((emission d s).tpt.get i).recentres = moved.recentres := by
  rw [emission_get]
  dsimp only
  split
  · rw [TakePoint.freedIfUnused_rest]
    exact ⟨rfl, rfl⟩
  · exact ⟨rfl, rfl⟩

/-- The references and the state of a record of the domain after an emission (R104). -/
theorem emission_get_used {d : Domain} {i : RecordNo} {s : State} (on : (s.tpt.get i).domain = d)
    (some : (s.tpt.get i).state ≠ .free) :
    let tp := s.tpt.get i
    let tp' := (emission d s).tpt.get i
    let left := tp.references - (releasedIn Ramp.next d s).count (tp.ring, d)
    tp'.ring = tp.ring ∧ tp'.state = (if left = 0 ∧ tp.reserved = false then .free else tp.state) ∧ tp'.references = left ∧
      tp'.reserved = tp.reserved := by
  obtain ⟨ring, domain, state, references, reserved⟩ :=
    advancedTake_keeps d (s.rings.get (s.tpt.get i).ring).written (s.tpt.get i)
  dsimp only
  rw [emission_get]
  dsimp only
  rw [advancedTake_named, TakePoint.named, if_neg some, references, on, domain, if_pos on,
    TakePoint.freedIfUnused_rest, TakePoint.freedIfUnused_state]
  exact ⟨ring, by rw [reserved, state], rfl, reserved⟩

/-- The pairs that the ramps which reach their length release, destination by destination. -/
theorem released_perm (d : Domain) (s : State) :
    (((List.finRange 144).filter fun x => destDomain x = d).flatMap fun x => (s.ramps.get x).elim [] fun r =>
      if r.length ≤ r.progress + 1 then entryPairs r.old d else []).Perm (releasedIn Ramp.next d s) := by
  refine ((filter_destDomain d).flatMap_right _).trans (List.Perm.of_eq (List.flatMap_congr fun x on => ?_))
  rw [mem_domainDests] at on
  unfold released Ramp.next
  cases s.ramps.get x with
  | none => rfl
  | some r =>
    rw [Option.elim_some, Option.elim_some, on]
    split <;> rfl

/-- Settles O27: each block that an emission moves has its own lemma above; the record's fields follow from emission_get. -/
theorem emissionMovesTakes : Obligations.EmissionMovesTakes := by
  unfold Obligations.EmissionMovesTakes
  refine ⟨fun d s => ⟨?reads, ?feed, ?line, ?clips, ?other, ?ramps⟩, fun d i s => ⟨emission_get_other, ?used, ?stays, ?runs, ?rings⟩⟩
  case reads =>
    have k := frame_underruns s d
    refine ⟨k.rings rfl, k.active rfl, k.ramps rfl, fun i => (underruns_get d i s).trans ?_⟩
    simp only [underrun, decide_eq_true_eq, Nat.sub_eq_zero_iff_le]
    rfl
  case feed =>
    rintro f rfl
    obtain ⟨lineOut, fmt⟩ := emission_feed f s
    refine ⟨lineOut, fun g other => by rw [fmt, Table.get_set_other _ _ _ _ (Ne.symm other)], ?_⟩
    rw [fmt, Table.get_set_same, toSamples_emittedValues, (frame_underruns s _).active rfl]
  case line =>
    rintro rfl
    obtain ⟨fmt, lineOut⟩ := emission_line s
    refine ⟨fmt, fun l => ?_⟩
    rw [lineOut, toSamples_get, emittedValues, Table.get_tab, if_pos (carriedIn_line _ l)]
  case clips =>
    intro x
    rw [emission_clips, Bool.or_eq_true, Bool.and_eq_true, beq_iff_eq, clips, Bool.and_eq_true, bne_iff_ne, saturate_ne_iff,
      (frame_underruns s d).active rfl]
  case other =>
    intro x still
    rw [emission_ramps]
    rcases still with off | none
    · rw [if_neg off]
    · rw [none]
      exact ite_self _
  case ramps =>
    intro x r on ramp
    rw [emission_ramps, if_pos on, ramp]
    rfl
  case used =>
    intro on some
    obtain ⟨-, state, references, reserved⟩ := emission_get_used on some
    rw [(released_perm d s).count_eq]
    exact ⟨references, reserved, state⟩
  case stays =>
    intro halts
    obtain ⟨take, recentres⟩ := emission_get_takes d i s
    rw [take, recentres, advancedTake, if_neg fun runs => halts runs.1]
    exact ⟨rfl, rfl⟩
  case runs =>
    intro on running
    obtain ⟨take, recentres⟩ := emission_get_takes d i s
    rw [take, recentres, advancedTake, if_pos ⟨running, on⟩]
    refine ⟨fun ahead => ?_, fun empty => ?_⟩
    · rw [if_neg (by omega), if_neg (by omega)]
      exact ⟨rfl, rfl⟩
    · have told := emission_tells running on empty
      rw [on] at told
      rw [if_pos empty, if_pos empty]
      exact ⟨rfl, rfl, told⟩
  case rings =>
    rw [emission_eq, (frame_emitTo _ d _).rings rfl]
    exact (emission_beside d s).rings rfl

end Machine

end Sys2Proof
end

section
/-! PROOF. What the packets of a line do (R20 to R32): a SOUND packet from its arrival to the ring it is written to, and the sorting of the extra classes. -/

namespace Sys2Proof

namespace Machine

theorem runningState_iff (r : FrState) : runningState r = true ↔ r = .settling ∨ r = .locked ∨ r = .wrongFormat := by
  cases r <;> simp [runningState]

/-! ## The arrival of a SOUND packet (R28) -/

theorem quad?_of_field {p : Packet} {q : Quad} (h : headerField p.header = q.val) : p.quad? = some q := by
  unfold Packet.quad?
  rw [dif_pos (h ▸ q.isLt)]
  exact congrArg some (Fin.ext h)

theorem quad?_of_le {p : Packet} (h : 4 ≤ headerField p.header) : p.quad? = none := dif_neg (by omega)

theorem remember_of_first {f : Feed} {q : Quad} {s : State} (running : runningState (s.fr.get f).state = true)
    (first : (s.fr.get f).remembered.get q = none) (p : Packet) : remember f q p s =
      s.setFr f { s.fr.get f with remembered := (s.fr.get f).remembered.set q (some p) } := by
  simp [remember, running, first]

theorem remember_of_not {f : Feed} {q : Quad} {s : State}
    (h : ¬runningState (s.fr.get f).state = true ∨ (s.fr.get f).remembered.get q ≠ none) (p : Packet) :
    remember f q p s = s := by
  refine if_neg fun taken => ?_
  rw [Bool.and_eq_true, Option.isNone_iff_eq_none] at taken
  exact h.elim (fun stopped => stopped taken.1) (fun later => later taken.2)

/-- Remembering a packet moves no other field of the FR. -/
theorem remember_fr (f : Feed) (q : Quad) (p : Packet) (s : State) : ∃ kept,
    (remember f q p s).fr.get f = { s.fr.get f with remembered := kept } := by
  unfold remember
  dsimp only
  split
  · exact ⟨_, Table.get_set_same _ _ _⟩
  · exact ⟨_, rfl⟩

theorem soundPacket_of_quad {f : Feed} {q : Quad} {p : Packet} (h : p.quad? = some q) (line : Nat) (s : State) :
    soundPacket f line p s =
      if (s.fr.get f).state = .locked then lockedSound f line q p (remember f q p s) else remember f q p s := by
  obtain ⟨kept, fr⟩ := remember_fr f q p s
  have state : ((remember f q p s).fr.get f).state = (s.fr.get f).state := by rw [fr]
  unfold soundPacket
  rw [h]
  dsimp only
  rw [state]

theorem takePacket_of_sound {p : Packet} (h : classOf p.header = .sound) (f : Feed) (line : Nat) (control : Bool)
    (s : State) : takePacket f line control p s = soundPacket f line p s := by
  unfold takePacket
  rw [h]

/-- The placement that R25 asks for, spelled out. -/
theorem misplaced_eq_false {r : Receiver} {line : Nat} {q : Quad} {p : Packet} (unclaimed : r.claimed.get q = false)
    (count : p.soundHead.setCount = 1 ∨ p.soundHead.setCount = 2)
    (length : headerLength p.header = 1 + 6 * p.soundHead.setCount.toNat) (carrying : 2 < line) :
    misplaced r line q p = false := by
  rw [← Bool.not_eq_true, misplaced_iff, unclaimed]
  rintro (claimed | none | three | wrong | quiet)
  · cases claimed
  · rw [none] at count
    exact absurd count (by decide)
  · rw [three] at count
    exact absurd count (by decide)
  · exact wrong length
  · omega

/-! ## The sequence check (R26) -/

theorem checkSequence_quad (f : Feed) (q : Quad) (count : BitVec 4) (s : State) :
    ((checkSequence f q count s).fr.get f).quads.get q =
      { (s.fr.get f).quads.get q with basePending := false, lastCount := count } := by
  simp only [checkSequence, changeQuad_fr_same, Table.get_modify_same]
  split <;> simp only [report_fields]

theorem checkSequence_quad_other (f : Feed) {q q' : Quad} (h : q' ≠ q) (count : BitVec 4) (s : State) :
    ((checkSequence f q count s).fr.get f).quads.get q' = (s.fr.get f).quads.get q' := by
  simp only [checkSequence, changeQuad_fr_same, Table.get_modify_other _ _ _ _ h.symm]
  split <;> simp only [report_fields]

theorem checkSequence_log (f : Feed) (q : Quad) (count : BitVec 4) (s : State) :
    (checkSequence f q count s).log =
      if ((s.fr.get f).quads.get q).basePending = false ∧ count ≠ ((s.fr.get f).quads.get q).lastCount + 1 then
        (report .sequenceGap (.inputQuad f q) s).log else s.log :=
  apply_ite State.log _ _ _

/-! ## An accepted packet (R10, R27) -/

section

variable {f : Feed} {q : Quad} {s : State}

theorem makePresent_of_present (h : ((s.fr.get f).quads.get q).state = .present) : makePresent f q s = s := if_pos h

/-- The quad that an accepted packet finds not PRESENT, made so. -/
theorem makePresent_of_not_present (h : ((s.fr.get f).quads.get q).state ≠ .present) : makePresent f q s =
    resetRing (feedRing f q) (s.setFr f { s.fr.get f with
      quads := (s.fr.get f).quads.set q { (s.fr.get f).quads.get q with state := .present } }) := if_neg h

/-- Making a quad PRESENT moves its state alone. -/
theorem makePresent_quad (f : Feed) (q : Quad) (s : State) : ((makePresent f q s).fr.get f).quads.get q =
    { (s.fr.get f).quads.get q with state := .present } := by
  by_cases h : ((s.fr.get f).quads.get q).state = .present
  · rw [makePresent_of_present h, ← h]
  · rw [makePresent_of_not_present h, (frame_resetRing _ _).fr rfl]
    simp only [State.setFr_fields, Table.get_set_same]

theorem makePresent_fr_other {g : Feed} (h : g ≠ f) : (makePresent f q s).fr.get g = s.fr.get g := by
  unfold makePresent
  split
  · rfl
  · rw [(frame_resetRing _ _).fr rfl, changeQuad_fr_other _ _ _ _ h]

/-- The ring that the packet's sets are written to: as it stands, or just reset. -/
theorem makePresent_ring (f : Feed) (q : Quad) (s : State) : (makePresent f q s).rings.get (feedRing f q) =
    if ((s.fr.get f).quads.get q).state = .present then s.rings.get (feedRing f q) else ⟨0, []⟩ := by
  split
  case isTrue h => rw [makePresent_of_present h]
  case isFalse h =>
    rw [makePresent_of_not_present h, resetRing_rings_same]
    rfl

theorem makePresent_ring_other {r : RingNo} (h : r ≠ feedRing f q) : (makePresent f q s).rings.get r = s.rings.get r := by
  unfold makePresent
  split
  · rfl
  · exact resetRing_rings_other _ _ h

/-- The sets of an accepted packet written and offered, before the FR's own fields move. -/
def soundWritten (f : Feed) (q : Quad) (p : Packet) (s : State) : State :=
  offerSets (feedRing f q) p.soundSets (writeEvent (feedRing f q) p.soundSets (makePresent f q s))

theorem acceptSound_eq (f : Feed) (q : Quad) (p : Packet) (s : State) : acceptSound f q p s =
    changeQuad f q (fun k => { k with empty := 0, carried := true, tracker := k.tracker.tallied p.soundHead })
      (soundWritten f q p s) := rfl

theorem soundWritten_fr (f : Feed) (q : Quad) (p : Packet) (s : State) :
    (soundWritten f q p s).fr = (makePresent f q s).fr := by
  rw [soundWritten, (frame_offerSets _ _ _).fr rfl, (frame_writeEvent _ _ _).fr rfl]

theorem acceptSound_quad (f : Feed) (q : Quad) (p : Packet) (s : State) :
    ((acceptSound f q p s).fr.get f).quads.get q = { (s.fr.get f).quads.get q with
      state := .present, empty := 0, carried := true
      tracker := ((s.fr.get f).quads.get q).tracker.tallied p.soundHead } := by
  rw [acceptSound_eq, changeQuad_fr_same, Table.get_modify_same, soundWritten_fr, makePresent_quad]

theorem acceptSound_fr_other {g : Feed} (h : g ≠ f) (p : Packet) : (acceptSound f q p s).fr.get g = s.fr.get g := by
  rw [acceptSound_eq, changeQuad_fr_other _ _ _ _ h, soundWritten_fr, makePresent_fr_other h]

/-- Records, rings and log of an accepted packet are those of its write event. -/
theorem acceptSound_of_write (f : Feed) (q : Quad) (p : Packet) (s : State) :
    let t := writeEvent (feedRing f q) p.soundSets (makePresent f q s)
    (acceptSound f q p s).tpt = t.tpt ∧ (acceptSound f q p s).rings = t.rings ∧ (acceptSound f q p s).log = t.log := by
  have offered := frame_offerSets (writeEvent (feedRing f q) p.soundSets (makePresent f q s)) (feedRing f q) p.soundSets
  exact ⟨offered.tpt rfl, offered.rings rfl, offered.log rfl⟩

theorem offerSets_watch_congr {r : RingNo} (sets : List SampleSet) {s t : State} (h : t.watch = s.watch) :
    (offerSets r sets t).watch = (offerSets r sets s).watch := by
  induction sets generalizing s t with
  | nil => exact h
  | cons x sets ih =>
    rw [offerSets_cons, offerSets_cons]
    refine ih ?_
    simp only [offerSet, State.setTracks_fields, h]

theorem acceptSound_watch (f : Feed) (q : Quad) (p : Packet) (s : State) :
    (acceptSound f q p s).watch = (offerSets (feedRing f q) p.soundSets (makePresent f q s)).watch := by
  have written := (frame_writeEvent (makePresent f q s) (feedRing f q) p.soundSets).watch rfl
  exact offerSets_watch_congr _ written

theorem acceptSound_rings (f : Feed) (q : Quad) (p : Packet) (s : State) :
    (acceptSound f q p s).rings = (makePresent f q s).rings.set (feedRing f q)
      (p.soundSets.foldl Ring.push ((makePresent f q s).rings.get (feedRing f q))) :=
  (acceptSound_of_write f q p s).2.1.trans (writeEvent_rings _ _ _)

theorem exists_ringTrack {w : TrackNo} {r : RingNo} (h : trackRing w = r) : ∃ p, ringTrack r p = w := by
  have place : w.val / 4 = r.val := congrArg Fin.val h
  refine ⟨⟨w.val % 4, Nat.mod_lt _ (by decide)⟩, Fin.ext ?_⟩
  simp only [ringTrack]
  omega

/-- A ring just reset has no RUNNING record, so the packet's sets re-centre none (R52, R62). -/
theorem acceptSound_of_not_present (h : ((s.fr.get f).quads.get q).state ≠ .present) (p : Packet) :
    (acceptSound f q p s).log = s.log ∧
      (acceptSound f q p s).tpt = s.tpt.map fun tp => tp.movedOn (feedRing f q) .filling := by
  have rests : ∀ i, ((makePresent f q s).tpt.get i).ring = feedRing f q →
      ((makePresent f q s).tpt.get i).state ≠ .running := by
    intro i
    rw [makePresent_of_not_present h, resetRing_tpt]
    unfold TakePoint.movedOn
    split
    case isTrue => exact fun _ filling => by cases filling
    case isFalse away =>
      intro on running
      exact away ⟨on, by rw [running]; decide⟩
  obtain ⟨tpt, _, log⟩ := acceptSound_of_write f q p s
  rw [tpt, log, writeEvent_of_none_runs rests, makePresent_of_not_present h]
  exact ⟨rfl, rfl⟩

end

/-- Settles O10: a SOUND packet is remembered and judged; the sequence check moves the quad's own fields; an accepted packet's records, rings and log are those of its write event, and its quad, tracks and FR those of the updates around it. -/
theorem acceptedPacketIsCheckedAndWritten : Obligations.AcceptedPacketIsCheckedAndWritten := by
  unfold Obligations.AcceptedPacketIsCheckedAndWritten
  refine ⟨?arrival, ?sequence, ?accepted⟩
  case arrival =>
    intro f line control p s sound
    dsimp only
    rw [takePacket_of_sound sound]
    refine ⟨fun noQuad => ?_, fun q field => ⟨remember f q p s, fun running first => ?_, fun not => ?_, fun off => ?_,
      fun locked => ⟨?_, fun good unclaimed count length carrying => ?_⟩⟩⟩
    · rw [soundPacket, quad?_of_le noQuad]
    · exact remember_of_first ((runningState_iff _).mpr running) first p
    · exact remember_of_not (not.imp_left fun off running => off ((runningState_iff _).mp running)) p
    · rw [soundPacket_of_quad (quad?_of_field field), if_neg off]
    · rw [soundPacket_of_quad (quad?_of_field field), if_pos locked]
    · obtain ⟨kept, fr⟩ := remember_fr f q p s
      have unclaimed' : ((remember f q p s).fr.get f).claimed.get q = false := by rw [fr]; exact unclaimed
      rw [soundPacket_of_quad (quad?_of_field field), if_pos locked,
        lockedSound_of_placed f line q p _ (beq_iff_eq.mpr good) (misplaced_eq_false unclaimed' count length carrying)]
      rfl
  case sequence =>
    intro f q count s
    exact ⟨checkSequence_quad f q count s, fun q' other => checkSequence_quad_other f other count s,
      checkSequence_log f q count s⟩
  case accepted =>
    intro f q p s
    dsimp only
    obtain ⟨tpt, _, log⟩ := acceptSound_of_write f q p s
    have rings := acceptSound_rings f q p s
    rw [acceptSound_quad]
    refine ⟨fun present => ?_, fun absent => ⟨makePresent_of_not_present absent, ?_, fun i => ?_, fun w on => ?_⟩, rfl, rfl,
      rfl, acceptSound_watch f q p s, rfl, rfl, rfl, ?_, fun short => ?_, fun r other => ?_,
      fun g other => acceptSound_fr_other other p⟩
    · rw [tpt, log, makePresent_of_present present]
      exact ⟨rfl, rfl, rfl⟩
    · exact (acceptSound_of_not_present absent p).1
    · rw [(acceptSound_of_not_present absent p).2, Table.get_map, TakePoint.movedOn]
    · obtain ⟨i, rfl⟩ := exists_ringTrack on
      rw [acceptSound_watch, offerSets_tracks_ring, makePresent_of_not_present absent, resetRing_tracks, if_pos on]
      exact ⟨rfl, rfl⟩
    · rw [rings, Table.get_set_same, Ring.written_pushes, makePresent_ring, soundSets_length]
    · rw [← makePresent_ring] at short
      rw [rings, Table.get_set_same, Ring.store_pushes short, makePresent_ring]
    · rw [rings, Table.get_set_other _ _ _ _ (Ne.symm other), makePresent_ring_other other]

end Machine

end Sys2Proof
end

section
/-! PROOF. The extra-class packets of a line (R29 to R32): management packets sorted by address, checksum and length, stamps handed to the Cue Unit, and the pass-through place. -/

namespace Sys2Proof

namespace Machine

theorem takePacket_of_management {p : Packet} (h : classOf p.header = .manage ∨ classOf p.header = .clear) (f : Feed)
    (line : Nat) (control : Bool) (s : State) : takePacket f line control p s =
      if control then managementPacket f p s else passThrough f p s := by
  unfold takePacket
  rcases h with h | h <;> rw [h]

theorem takePacket_of_stamp {p : Packet} (h : classOf p.header = .stamp) (f : Feed) (line : Nat) (control : Bool)
    (s : State) : takePacket f line control p s = stampPacket f p s := by
  unfold takePacket
  rw [h]

theorem takePacket_of_passed {p : Packet} (h : classOf p.header = .answer ∨ classOf p.header = .other) (f : Feed)
    (line : Nat) (control : Bool) (s : State) : takePacket f line control p s = passThrough f p s := by
  unfold takePacket
  rcases h with h | h <;> rw [h]

/-- The content lengths that MANAGE and CLEAR allow (R21). -/
theorem managementLengthAllowed_iff {p : Packet} (h : classOf p.header = .manage ∨ classOf p.header = .clear) :
    p.managementLengthAllowed = true ↔ if classOf p.header = .manage then
      1 ≤ headerLength p.header ∧ headerLength p.header ≤ 30 else headerLength p.header = 0 := by
  unfold Packet.managementLengthAllowed
  rcases h with h | h
  · rw [h, if_pos rfl]
    exact decide_eq_true_iff
  · rw [h, if_neg (by decide)]
    exact beq_iff_eq

theorem good_iff (p : Packet) : p.good = true ↔ p.checksum = checksumOf p.header p.content := beq_iff_eq

theorem judgeManagement_of_valid {p : Packet} (good : p.good = true) (length : p.managementLengthAllowed = true)
    (s : State) : judgeManagement p s = actOnManagement p s := if_pos (by rw [good, length]; rfl)

theorem judgeManagement_of_invalid {p : Packet} (h : ¬(p.good = true ∧ p.managementLengthAllowed = true)) (s : State) :
    judgeManagement p s = report .managementChecksum (managementSource s) s := by
  refine if_neg ?_
  rwa [Bool.and_eq_true]

theorem managementPacket_of_address {f : Feed} {p : Packet} {s : State} (h : headerField p.header = s.mgmt.address) :
    managementPacket f p s = judgeManagement p s := if_pos h

theorem managementPacket_of_broadcast {f : Feed} {p : Packet} {s : State} (h : headerField p.header = 15)
    (other : s.mgmt.address ≠ 15) : managementPacket f p s = judgeManagement p (passThrough f p s) :=
  (if_neg fun own => other (own.symm.trans h)).trans (if_pos h)

theorem managementPacket_of_other {f : Feed} {p : Packet} {s : State} (other : headerField p.header ≠ s.mgmt.address)
    (single : headerField p.header ≠ 15) : managementPacket f p s = passThrough f p s :=
  (if_neg other).trans (if_neg single)

/-! ## Stamps and the pass-through place -/

/-- What R31 asks of a stamp before the CU takes it. -/
def stampFits (p : Packet) (fm : Format) : Bool := p.good && headerLength p.header == 2 && p.stamp.inRange (rateOf fm)

theorem stampFits_iff (p : Packet) (fm : Format) : stampFits p fm = true ↔ p.checksum = checksumOf p.header p.content ∧
    headerLength p.header = 2 ∧ p.stamp.hours < 24 ∧ p.stamp.minutes < 60 ∧ p.stamp.seconds < 60 ∧
      p.stamp.frames < rateOf fm := by
  simp only [stampFits, Stamp.inRange, Bool.and_eq_true, decide_eq_true_eq, beq_iff_eq, good_iff, and_assoc]

theorem stampPacket_of_locked {f : Feed} {s : State} {fm : Format} (locked : (s.fr.get f).state = .locked)
    (detected : (s.fr.get f).detected = some fm) (p : Packet) : stampPacket f p s =
      passThrough f p (if stampFits p fm then takeStamp f (rateOf fm) p.stamp s else s) := by
  unfold stampPacket stampFits
  dsimp only
  rw [locked, detected]

theorem stampPacket_of_not {f : Feed} {s : State} (h : (s.fr.get f).state ≠ .locked ∨ (s.fr.get f).detected = none)
    (p : Packet) : stampPacket f p s = passThrough f p s := by
  unfold stampPacket
  dsimp only
  split
  case h_1 fm locked detected =>
    rcases h with off | none
    · exact absurd locked off
    · rw [none] at detected
      cases detected
  case h_2 => rfl

theorem passThrough_of_empty {f : Feed} {s : State} (running : runningState (s.fr.get f).state = true)
    (empty : (s.fr.get f).place = none) (p : Packet) :
    passThrough f p s = s.setFr f { s.fr.get f with place := some p } := by
  simp [passThrough, running, empty]

theorem passThrough_of_not {f : Feed} {s : State}
    (h : (s.fr.get f).place ≠ none ∨ ¬runningState (s.fr.get f).state = true) (p : Packet) : passThrough f p s = s := by
  refine if_neg fun free => ?_
  rw [Bool.and_eq_true, Option.isNone_iff_eq_none] at free
  exact h.elim (fun taken => taken free.2) (fun stopped => stopped free.1)

/-- Settles O11: a case for each address of a management packet, for a stamp that fits and for one that does not, and for the place. -/
theorem extraClassPacketsSorted : Obligations.ExtraClassPacketsSorted := by
  unfold Obligations.ExtraClassPacketsSorted
  refine ⟨?management, ?stamps, ?place⟩
  case management =>
    intro f line p s cls
    dsimp only
    have valid_iff : p.checksum = checksumOf p.header p.content ∧ (if classOf p.header = .manage then
        1 ≤ headerLength p.header ∧ headerLength p.header ≤ 30 else headerLength p.header = 0) ↔
        p.good = true ∧ p.managementLengthAllowed = true := by
      rw [good_iff, managementLengthAllowed_iff cls]
    have control : takePacket f line true p s = managementPacket f p s := takePacket_of_management cls f line true s
    rw [valid_iff, control]
    refine ⟨fun own => ?_, fun broadcast other => ?_, managementPacket_of_other, takePacket_of_management cls f line false s⟩
    · rw [managementPacket_of_address own]
      exact ⟨fun ⟨good, length⟩ => judgeManagement_of_valid good length s, fun bad => judgeManagement_of_invalid bad s⟩
    · have source : managementSource (passThrough f p s) = .management s.mgmt.controlFeed :=
        congrArg (fun m : Management => FaultSource.management m.controlFeed) ((frame_passThrough s f p).mgmt rfl)
      rw [managementPacket_of_broadcast broadcast other, ← source]
      exact ⟨fun ⟨good, length⟩ => judgeManagement_of_valid good length _, fun bad => judgeManagement_of_invalid bad _⟩
  case stamps =>
    intro f line control p s
    dsimp only
    refine ⟨fun stamp fm detected => ?_, fun stamp none => ?_, fun passed => takePacket_of_passed passed f line control s⟩
    · rw [takePacket_of_stamp stamp]
      refine ⟨fun ⟨locked, fits⟩ => ?_, fun not => ?_⟩
      · rw [stampPacket_of_locked locked detected, if_pos ((stampFits_iff p fm).mpr fits)]
        rfl
      · by_cases locked : (s.fr.get f).state = .locked
        · rw [stampPacket_of_locked locked detected, if_neg fun fits => not ⟨locked, (stampFits_iff p fm).mp fits⟩]
        · exact stampPacket_of_not (.inl locked) p
    · rw [takePacket_of_stamp stamp]
      exact stampPacket_of_not (.inr none) p
  case place =>
    intro f p s
    dsimp only
    rw [← runningState_iff]
    exact ⟨fun running empty => passThrough_of_empty running empty p, fun taken => passThrough_of_not (.inl taken) p,
      fun stopped => passThrough_of_not (.inr stopped) p⟩

end Machine

end Sys2Proof
end

section
/-! PROOF. The slots of an output line (R34, R35), the extra slot with its answers (R37, R38), and the line of a domain that does not run (R33). -/

namespace Sys2Proof

namespace Machine

/-! ## Sound slots -/

section

variable (f : Feed) (line : Nat) (q : Quad) (s : State)

theorem buildsOn_iff : buildsOn f q line s = true ↔
    embeds (s.active.modes.get (outQuad f q)) = true ∧ 2 < line ∧ (s.fmt.get f).sets ≠ [] := by
  rw [buildsOn, Bool.and_eq_true, Bool.and_eq_true, decide_eq_true_eq, Bool.not_eq_true', and_assoc,
    ← Bool.not_eq_true, List.isEmpty_iff]

theorem soundSlot_of_pass (h : s.active.modes.get (outQuad f q) = .pass) :
    soundSlot f line s q = if 2 < line then (s.fr.get f).remembered.get q else none := by
  rw [soundSlot, h]

theorem soundSlot_of_remove (h : s.active.modes.get (outQuad f q) = .remove) : soundSlot f line s q = none := by
  rw [soundSlot, h]

theorem soundSlot_of_embeds (h : embeds (s.active.modes.get (outQuad f q)) = true) :
    soundSlot f line s q = if 2 < line ∧ (s.fmt.get f).sets ≠ [] then some (builtPacket f q s) else none := by
  have slot : soundSlot f line s q = if buildsOn f q line s then some (builtPacket f q s) else none := by
    rcases (embeds_iff _).mp h with mode | mode <;> rw [soundSlot, mode]
  rw [slot]
  exact if_congr ((buildsOn_iff f line q s).trans (and_iff_right h)) rfl rfl

theorem soundSlot_of_quiet (h : line ≤ 2) : soundSlot f line s q = none := by
  have quiet : ¬2 < line := by omega
  cases mode : s.active.modes.get (outQuad f q) with
  | pass => rw [soundSlot_of_pass f line q s mode, if_neg quiet]
  | remove => exact soundSlot_of_remove f line q s mode
  | embed24 => rw [soundSlot_of_embeds f line q s (by rw [mode]; rfl), if_neg fun on => quiet on.1]
  | embed20 => rw [soundSlot_of_embeds f line q s (by rw [mode]; rfl), if_neg fun on => quiet on.1]

theorem soundSlots_get : (soundSlots f line s).get q = soundSlot f line s q := Table.get_tab _ _

end

/-- Settles O12: a case for each mode of the slot; a built packet is a SOUND packet made of these fields, which reads back. -/
theorem soundSlotsAndBuiltPackets : Obligations.SoundSlotsAndBuiltPackets := by
  unfold Obligations.SoundSlotsAndBuiltPackets
  refine ⟨fun f line q s => ?_, fun f q s some few phase => ?_⟩
  · dsimp only
    rw [soundSlots_get, ← embeds_iff]
    refine ⟨soundSlot_of_quiet f line q s, soundSlot_of_remove f line q s, fun carrying pass => ?_,
      fun carrying mode none => ?_, fun carrying mode sets => ?_⟩
    · rw [soundSlot_of_pass f line q s pass, if_pos carrying]
    · rw [soundSlot_of_embeds f line q s mode, if_neg fun on => on.2 none]
    · rw [soundSlot_of_embeds f line q s mode, if_pos ⟨carrying, sets⟩]
  · dsimp only
    have count : (BitVec.ofNat 2 (s.fmt.get f).sets.length).toNat = (s.fmt.get f).sets.length := by
      rw [BitVec.toNat_ofNat, Nat.mod_eq_of_lt (by omega)]
    have length : ((s.fmt.get f).sets.map fun v => Table.tab 4 fun p => v.get (quadTrack q p)).length =
        (s.fmt.get f).sets.length := List.length_map ..
    have few' := length.trans_le few
    unfold builtPacket
    dsimp only
    rw [makeSound_soundHead]
    refine ⟨makeSound_good _ _ _, makeSound_class _ _ few', makeSound_quad _ _ few',
      (makeSound_length _ _ few').trans (by rw [length]), rfl, ?_, rfl, count, rfl, fun i => Table.get_tab _ _, ?_⟩
    · rw [BitVec.toNat_ofNat, Nat.mod_eq_of_lt (by omega)]
    · rw [makeSound_soundSets _ _ _ (length.trans count.symm), List.map_map]
      exact List.map_id _

/-! ## Answers and notices -/

theorem logFlags_eq (l : FaultLog) : logFlags l = BitVec.ofNat 8
    ((if l.records = [] then 0 else 1) + (if l.overflow then 2 else 0) + (if l.pending then 4 else 0)) := by
  have flags : ∀ p o e : Bool, (0#5 ++ BitVec.ofBool p ++ BitVec.ofBool o ++ BitVec.ofBool (!e) : Byte) =
      BitVec.ofNat 8 ((if e = true then 0 else 1) + (if o then 2 else 0) + (if p then 4 else 0)) := by decide
  rw [logFlags, flags]
  simp only [List.isEmpty_iff]

section

variable {address : Nat} {words : List Word} (own : address < 15) (few : words.length ≤ 28)
include own few

theorem answerPacket_header (tag code : Byte) (outcome : Nat) (flags : Byte) :
    (answerPacket address tag code outcome flags words).header.toNat = 12288 + 256 * address + (2 + words.length) :=
  makeHeader_toNat (c := 3) (by omega) (by omega) (by omega)

theorem answerPacket_fields (tag code : Byte) (outcome : Nat) (flags : Byte) :
    let p := answerPacket address tag code outcome flags words
    p.good = true ∧ classOf p.header = .answer ∧ headerField p.header = address ∧
      headerLength p.header = 2 + words.length := by
  have header := answerPacket_header own few tag code outcome flags
  have three : headerClass (answerPacket address tag code outcome flags words).header = 3 := by
    rw [headerClass_eq, header]
    omega
  refine ⟨beq_self_eq_true _, ?_, ?_, ?_⟩
  · rw [classOf, three]
    rfl
  · have high : (12288 + 256 * address + (2 + words.length)) / 256 = 48 + address := by omega
    rw [headerField_eq, header, high]
    omega
  · rw [headerLength_eq, header]
    omega

end

/-! ## The extra slot and the AQ (R37) -/

section

variable {f : Feed} {s : State}

theorem extraSlot_of_place {p : Packet} (h : (s.fr.get f).place = some p) : extraSlot f s = some p := by
  rw [extraSlot, h]

theorem extraSlot_of_other (empty : (s.fr.get f).place = none) (other : s.mgmt.answerFeed ≠ f) :
    extraSlot f s = none := by
  rw [extraSlot, empty]
  exact if_neg other

theorem extraSlot_of_notice {n : Notice} (empty : (s.fr.get f).place = none) (own : s.mgmt.answerFeed = f)
    (notice : s.mgmt.notice = some n) : extraSlot f s = some (packetOfNotice s n) := by
  rw [extraSlot, empty]
  dsimp only
  rw [if_pos own, notice]

theorem extraSlot_of_answers (empty : (s.fr.get f).place = none) (own : s.mgmt.answerFeed = f)
    (notice : s.mgmt.notice = none) : extraSlot f s = s.mgmt.answers.head?.map (packetOfAnswer s) := by
  rw [extraSlot, empty]
  dsimp only
  rw [if_pos own, notice]

theorem drainQueue_of_not (h : (s.fr.get f).place ≠ none ∨ s.mgmt.answerFeed ≠ f) : drainQueue f s = s := by
  refine if_neg fun ⟨empty, own⟩ => ?_
  rw [Option.isNone_iff_eq_none] at empty
  exact h.elim (fun taken => taken empty) (fun other => other own)

theorem drainQueue_of_answers (empty : (s.fr.get f).place = none) (own : s.mgmt.answerFeed = f)
    (notice : s.mgmt.notice = none) :
    drainQueue f s = s.setMgmt { s.mgmt with answers := s.mgmt.answers.tail } := by
  simp [drainQueue, empty, own, notice]

end

/-- Settles O13: a case for each thing the extra slot can carry; an answer and a notice are answer packets, whose header reads back. -/
theorem extraSlotAndAnswerLayout : Obligations.ExtraSlotAndAnswerLayout := by
  unfold Obligations.ExtraSlotAndAnswerLayout
  refine ⟨fun f s => ⟨fun p place => ⟨extraSlot_of_place place, drainQueue_of_not (.inl (by rw [place]; nofun))⟩,
    fun empty other => ⟨extraSlot_of_other empty other, drainQueue_of_not (.inr other)⟩,
    fun n empty own notice => ⟨extraSlot_of_notice empty own notice, ?_⟩, fun empty notice answers => ?_,
    fun a rest empty own notice answers => ⟨?_, ?_⟩⟩, fun s a n own few => ?_, rfl, rfl, fun f q r d x w c => ?_⟩
  · rw [drainQueue_of_notice empty own notice]
    obtain ⟨_, told⟩ := told_noticeForNewest (s.setMgmt { s.mgmt with notice := none })
    rw [told]
    rfl
  · by_cases own : s.mgmt.answerFeed = f
    · rw [extraSlot_of_answers empty own notice, answers]
      rfl
    · exact extraSlot_of_other empty own
  · rw [extraSlot_of_answers empty own notice, answers]
    rfl
  · rw [drainQueue_of_answers empty own notice, answers]
    rfl
  · dsimp only
    rw [← logFlags_eq]
    obtain ⟨good, cls, field, length⟩ := answerPacket_fields own few a.tag a.code (verdictCode a.verdict) (logFlags s.log)
    obtain ⟨good', cls', field', -⟩ := answerPacket_fields own (words := [numWord (reasonCode n.reason),
      numWord (sourceKind n.source), numWord (sourceIndex n.source), numWord n.count]) (by simp) 0 255 0 (logFlags s.log)
    exact ⟨good, cls, field, length, rfl, good', cls', field', rfl⟩
  · exact ⟨rfl, rfl, rfl, rfl, rfl, rfl, rfl, rfl⟩

/-! ## Lines of a domain that does not run -/

/-- No command waits where none waited and the executor's queue stands as it was. -/
theorem noneWaits_congr {s t : State} (queue : t.mgmt.queue = s.mgmt.queue) (cx : t.mgmt.cx = s.mgmt.cx) :
    t.noneWaits = s.noneWaits := by
  unfold State.noneWaits
  rw [queue, cx]

theorem finish_of_same_mgmt {s t : State} (h : s.noneWaits = true) (mgmt : t.mgmt = s.mgmt) : finish t = t :=
  finish_of_noneWaits t ((noneWaits_congr (by rw [mgmt]) (by rw [mgmt])).trans h)

theorem emitOnce_of_stopped {f : Feed} {s : State} (h : runningState (s.fr.get f).state = false) : emitOnce f s = s := by
  refine if_neg ?_
  unfold domainRunning
  rw [domainFeed?_feedDomain]
  simp [h]

theorem walk_emitOnce_of_stopped {f : Feed} {s : State} (h : runningState (s.fr.get f).state = false)
    (l : List Nat) : walk l (fun _ => emitOnce f) s = s := by
  induction l with
  | nil => rfl
  | cons n l ih => rw [walk_cons, emitOnce_of_stopped h, ih]

theorem domainRunning_feedDomain (s : State) (f : Feed) :
    domainRunning s (feedDomain f) = runningState (s.fr.get f).state := by
  unfold domainRunning
  rw [domainFeed?_feedDomain]

theorem domainRunning_domain8 (s : State) : domainRunning s domain8 = true := rfl

theorem sendOutput_of_running {f : Feed} {s : State} (h : runningState (s.fr.get f).state = true) (line : Nat)
    (r : LineRecord) : sendOutput f line r s = sendBuilt f line r s :=
  if_pos ((domainRunning_feedDomain s f).trans h)

theorem sendOutput_of_stopped {f : Feed} {s : State} (h : runningState (s.fr.get f).state = false) (line : Nat)
    (r : LineRecord) : sendOutput f line r s = sendEmpty f r s :=
  if_neg (by rw [domainRunning_feedDomain, h]; nofun)

theorem takeLine_of_off {f : Feed} {s : State} (h : (s.fr.get f).state = .off) (r : LineRecord) (e : List Nat) :
    takeLine f r e s = sendEmpty f r s := if_pos h

theorem takeLine_of_on {f : Feed} {s : State} (h : (s.fr.get f).state ≠ .off) (r : LineRecord) (e : List Nat) :
    takeLine f r e s = sendOutput f (frameLine (s.fr.get f) r.frameMark) r
      (readLine f (frameLine (s.fr.get f) r.frameMark) (s.mgmt.controlFeed = f) (scanLine r.blanking) 0
        (lineEmissions f (frameLine (s.fr.get f) r.frameMark) e (openLine f r.frameMark s)) (openLine f r.frameMark s)) :=
  if_neg h

/-- An FR whose line is opened: the fields that the line before it left are cleared (R3, R23, R28). -/
def Receiver.opened (r : Receiver) (mark : Bool) : Receiver :=
  { r with
    lineCount := if mark then r.lineCount else r.lineCount + 1
    claimed := Table.fill 4 false
    place := none
    remembered := Table.fill 4 none }

theorem openLine_eq (f : Feed) (mark : Bool) (s : State) : openLine f mark s =
    (s.setFr f ((s.fr.get f).opened mark)).setFmt f { s.fmt.get f with sets := [] } := rfl

theorem openLine_fr (f : Feed) (mark : Bool) (s : State) : (openLine f mark s).fr.get f = (s.fr.get f).opened mark :=
  Table.get_set_same _ _ _

theorem setFmt_setFmt (s : State) (f : Feed) (o o' : Formatter) : (s.setFmt f o).setFmt f o' = s.setFmt f o' := by
  unfold State.setFmt
  congr 1
  exact Table.ext_get fun g => by simp only [Table.get_set]; split <;> rfl

/-- Settles O14: a stopped domain emits nothing, and a line without a packet has nothing to take. -/
theorem stoppedDomainSendsPicture : Obligations.StoppedDomainSendsPicture := by
  unfold Obligations.StoppedDomainSendsPicture
  intro f r e s quiet
  have awake := awake_of_quiet quiet
  have row : exec (.lineRecord f r e) s = .next (finish (takeLine f r e s)) :=
    congrArg Host.Outcome.next (feedEvent_of_awake _ s awake)
  rw [row]
  refine ⟨fun off => congrArg Host.Outcome.next ?_, fun seeking unmarked => congrArg Host.Outcome.next ?_⟩
  · rw [takeLine_of_off off]
    exact finish_of_same_mgmt (noneWaits_of_quiet quiet) rfl
  · have opened : runningState ((openLine f r.frameMark s).fr.get f).state = false := by
      rw [openLine_fr]
      exact congrArg runningState seeking
    rw [takeLine_of_on (by rw [seeking]; nofun), scanLine_unmarked unmarked, readLine, walk_emitOnce_of_stopped opened,
      sendOutput_of_stopped opened]
    have same : (sendEmpty f r (openLine f r.frameMark s)).mgmt = s.mgmt := rfl
    rw [finish_of_same_mgmt (noneWaits_of_quiet quiet) same]
    rw [sendEmpty, sendLine, openLine_eq, setFmt_setFmt]
    simp only [State.setFmt_fields, Table.get_set_same]
    rfl

end Machine

end Sys2Proof
end

section
/-! PROOF. The executor at an event (R163 to R165): where no command waits before the event none waits after it, so that the CX takes nothing then; and the executor stands as it was where no request is a command's. -/

namespace Sys2Proof

namespace Machine

/-! ## No command waits -/

/-- The executor of t is that of s: its queue, its CX, its discard flag and the answers in the AQ. -/
structure SameExecutor (s t : State) : Prop where
  queue : t.mgmt.queue = s.mgmt.queue
  cx : t.mgmt.cx = s.mgmt.cx
  discard : t.mgmt.discard = s.mgmt.discard
  answers : t.mgmt.answers = s.mgmt.answers

theorem SameExecutor.refl (s : State) : SameExecutor s s := ⟨rfl, rfl, rfl, rfl⟩

theorem SameExecutor.trans {s t u : State} (h : SameExecutor s t) (k : SameExecutor t u) : SameExecutor s u :=
  ⟨k.queue.trans h.queue, k.cx.trans h.cx, k.discard.trans h.discard, k.answers.trans h.answers⟩

theorem SameExecutor.of_told {s t : State} (h : OnlyTold s t) : SameExecutor s t := by
  obtain ⟨n, h⟩ := h
  exact ⟨by rw [h], by rw [h], by rw [h], by rw [h]⟩

theorem SameExecutor.of_frame {t : Touch} {s s' : State} (k : Frame t s s') (mgmt : t.mgmt = false := by rfl) :
    SameExecutor s s' := .of_told (.of_frame k mgmt)

theorem SameExecutor.of_unmoved {s t : State} (h : Unmoved s t) : SameExecutor s t :=
  ⟨h.queue, h.cx, h.discard, h.answers⟩

/-- An operation that answers at most the command in flight: none waits after it where none waited before. -/
def LeavesNoneWaiting (g : State → State) : Prop := Holds (fun s => s.noneWaits = true) g

theorem noneWaits_of_same {s t : State} (h : s.noneWaits = true) (k : SameExecutor s t) : t.noneWaits = true :=
  (noneWaits_congr k.queue k.cx).trans h

theorem noneWaits_of_frame {t : Touch} {s s' : State} (h : s.noneWaits = true) (k : Frame t s s')
    (mgmt : t.mgmt = false := by rfl) : s'.noneWaits = true := noneWaits_of_same h (.of_frame k mgmt)

theorem noneWaits_of_told {s t : State} (h : s.noneWaits = true) (k : OnlyTold s t) : t.noneWaits = true :=
  noneWaits_of_same h (.of_told k)

/-- Where none waits the queue holds the command in flight at most. -/
theorem queue_of_noneWaits {s : State} (h : s.noneWaits = true) : s.mgmt.queue.tail = [] := by
  unfold State.noneWaits at h
  split at h
  · rw [List.isEmpty_iff] at h
    rw [h, List.tail_nil]
  · rw [beq_iff_eq] at h
    exact List.eq_nil_of_length_eq_zero (by rw [List.length_tail, h])
  · cases h

theorem noneWaits_of_emptied {s : State} (queue : s.mgmt.queue = []) (cx : s.mgmt.cx = .idle) : s.noneWaits = true := by
  unfold State.noneWaits
  rw [cx, queue]
  rfl

theorem answerCommand_queue (v : Verdict) (words : List Word) (s : State) :
    (answerCommand v words s).mgmt.queue = s.mgmt.queue.tail ∧ (answerCommand v words s).mgmt.cx = .idle := by
  unfold answerCommand completedManagement
  cases queue : s.mgmt.queue with
  | nil => exact ⟨rfl, rfl⟩
  | cons c rest =>
    cases discard : s.mgmt.discard with
    | true => simp
    | false => simp

theorem noneWaits_answered (v : Verdict) (words : List Word) : LeavesNoneWaiting (answerCommand v words) := by
  intro s h
  obtain ⟨queue, cx⟩ := answerCommand_queue v words s
  exact noneWaits_of_emptied (queue.trans (queue_of_noneWaits h)) cx

theorem noneWaits_validate (r : Requester) : LeavesNoneWaiting (validate r) := by
  intro s h
  have refused : ∀ result v o words, (refuseCommit r result v o words s).noneWaits = true := fun result v o words => by
    have marked := noneWaits_of_frame h (frame_setCe s { s.ce with lastSource := some r, lastResult := result })
    unfold refuseCommit
    cases r with
    | command b => exact noneWaits_answered _ _ _ marked
    | cue c => exact noneWaits_of_told (noneWaits_of_frame marked (frame_setCue _ c _)) (told_report _ _ _)
    | failsafe => exact noneWaits_of_told marked (told_report _ _ _)
  exact keeps_ite (P := fun t => t.noneWaits = true) (refused _ _ _ _)
    (keeps_ite (P := fun t => t.noneWaits = true) (refused _ _ _ _) (noneWaits_of_frame h (frame_acceptCommit s r _)))

theorem noneWaits_takeWaiting (order : List Requester) : LeavesNoneWaiting (takeWaiting order) := by
  induction order with
  | nil => exact fun s h => h
  | cons r rest ih =>
    intro s h
    have left := noneWaits_of_frame (noneWaits_of_frame h (frame_setCe s { s.ce with waiting := rest })) (frame_leaveOrder _ r)
    have judged := noneWaits_validate r _ left
    exact keeps_ite (P := fun t => t.noneWaits = true) judged (ih _ judged)

theorem noneWaits_requestCommit (r : Requester) : LeavesNoneWaiting (requestCommit r) := fun s h =>
  keeps_ite (P := fun t => t.noneWaits = true) (noneWaits_validate r s h)
    (keeps_ite (P := fun t => t.noneWaits = true) h (noneWaits_of_frame h (frame_setCe s _)))

theorem noneWaits_completeCommit (c : InFlight) : LeavesNoneWaiting (completeCommit c) := by
  intro s h
  have ended : ∀ e t, (endCommit c ((s.setTpt t).setCe e)).noneWaits = true := fun e t => by
    have marked := noneWaits_of_frame (noneWaits_of_frame h (frame_setTpt s t)) (frame_setCe _ e)
    unfold endCommit
    generalize (s.setTpt t).setCe e = u at marked ⊢
    split
    case h_1 => exact noneWaits_answered _ _ _ marked
    case h_2 i _ =>
      have recorded := noneWaits_of_frame marked (frame_setCue u i { u.cues.get i with outcome := cueCompletion c })
      exact keeps_ite (P := fun t => t.noneWaits = true) recorded (noneWaits_of_told recorded (told_report _ _ _))
    case h_3 => exact marked
  exact noneWaits_takeWaiting _ _ (ended _ _)

theorem noneWaits_switchAt (d : Domain) (running : Bool) : LeavesNoneWaiting (switchAt d running) := by
  intro s h
  have switched := noneWaits_of_same h (.of_unmoved (unmoved_switchDomain d running s))
  unfold switchAt completeIfSwitched
  split
  · exact switched
  · exact keeps_ite (P := fun t => t.noneWaits = true) (noneWaits_completeCommit _ _ switched) switched

theorem noneWaits_takeStamp (f : Feed) (rate : Nat) (t : Stamp) : LeavesNoneWaiting (takeStamp f rate t) := by
  refine walk_holds _ fun c _ s h => ?_
  have fired : ∀ q, (requestCommit (.cue c) (s.setCue c q)).noneWaits = true := fun q =>
    noneWaits_requestCommit _ _ (noneWaits_of_frame h (frame_setCue s c q))
  exact keeps_ite (P := fun t => t.noneWaits = true) (keeps_ite (P := fun t => t.noneWaits = true) (fired _) (fired _)) h

theorem noneWaits_abortPathCheck : LeavesNoneWaiting abortPathCheck := fun s h =>
  noneWaits_answered _ _ _ (noneWaits_of_frame h (frame_setPc s _))

theorem noneWaits_pathCheckStop (f : Feed) : LeavesNoneWaiting (pathCheckStop f) := fun s h =>
  keeps_ite (P := fun t => t.noneWaits = true) (noneWaits_abortPathCheck s h) h

theorem noneWaits_pathCheckBoundary (f : Feed) : LeavesNoneWaiting (pathCheckBoundary f) := by
  intro s h
  refine keeps_ite (P := fun t => t.noneWaits = true) ?_ h
  split
  · exact h
  · exact noneWaits_of_frame h (frame_setPc s _)
  · exact noneWaits_answered _ _ _ (noneWaits_of_frame h (frame_setPc s _))

theorem noneWaits_pathCheckLine (f : Feed) (line : Nat) (slots : Table 4 (Option Packet)) :
    LeavesNoneWaiting (pathCheckLine f line slots) := by
  intro s h
  refine keeps_ite (P := fun t => t.noneWaits = true)
    (keeps_ite (P := fun t => t.noneWaits = true) (noneWaits_of_frame h (frame_noteQuiet s slots)) ?_) h
  have marked := keeps_ite (P := fun t => t.noneWaits = true) (c := s.pc.marked) h (noneWaits_of_frame h (frame_markQuads s f))
  generalize (if s.pc.marked then s else markQuads f s) = u at marked ⊢
  refine keeps_ite (P := fun t => t.noneWaits = true) ?_ (noneWaits_abortPathCheck u marked)
  split
  · exact keeps_ite (P := fun t => t.noneWaits = true) (noneWaits_of_frame marked (frame_examineSlots u f line slots)) marked
  · exact marked

theorem noneWaits_stopDomain (f : Feed) : LeavesNoneWaiting (stopDomain f) := by
  intro s h
  unfold stopDomain
  dsimp only
  exact noneWaits_pathCheckStop f _ (noneWaits_switchAt _ _ _ (noneWaits_of_frame (noneWaits_of_frame (noneWaits_of_frame
    (noneWaits_of_frame h (frame_setFmt s f _)) (frame_endRamps _ _)) (frame_clearClips _ _)) (frame_stopRound _ _)))

theorem noneWaits_boundaryPart (f : Feed) (fm : Format) (p : Part) : LeavesNoneWaiting (boundaryPart f fm p) := by
  intro s h
  cases p <;> dsimp only [boundaryPart]
  case takePoints => exact noneWaits_of_frame h (frame_judgeTakePoints s _)
  case switch => exact noneWaits_switchAt _ _ s h
  case clips => exact noneWaits_of_told h (told_handOverClips _ s)
  case presence k => exact noneWaits_of_told h (told_judgeFeedTrack f k s)
  case absence q => exact noneWaits_of_frame h (frame_closeQuadFrame s f q)
  case cadence q => exact noneWaits_of_told h (told_judgeCadence f fm q s)
  case dueCount => exact noneWaits_of_frame h (frame_countDue s f)
  case pathCheck => exact noneWaits_pathCheckBoundary f s h
  case settle => exact noneWaits_of_frame h (frame_settleStep s f)
  case leaveLocked => exact noneWaits_of_frame h (frame_leaveLocked s f)
  case stop => exact noneWaits_stopDomain f s h
  all_goals exact h

theorem noneWaits_runParts (f : Feed) (fm : Format) (order parts : List Part) : LeavesNoneWaiting (runParts f fm order parts) :=
  walk_holds _ fun p _ => noneWaits_boundaryPart f fm p

theorem noneWaits_loseLock (f : Feed) (fm : Format) (c : Option Format) (order extra : List Part) :
    LeavesNoneWaiting (loseLock f fm c order extra) := fun s h =>
  noneWaits_runParts f fm order _ _ (noneWaits_of_told (noneWaits_of_frame h (frame_setFr s f _)) (told_report _ _ _))

theorem noneWaits_closeFrame (f : Feed) (m : Option Format) (order : List Part) : LeavesNoneWaiting (closeFrame f m order) := by
  intro s h
  refine keeps_ite (P := fun t => t.noneWaits = true) ?_
    (noneWaits_of_frame (noneWaits_of_told h (told_seekBoundary f m s)) (frame_countDue _ f))
  split
  · exact h
  · exact keeps_ite (P := fun t => t.noneWaits = true)
      (noneWaits_runParts f _ order _ _ (noneWaits_of_frame h (frame_openFrame s f _)))
      (noneWaits_loseLock f _ m order _ s h)

theorem noneWaits_frameMark (f : Feed) (period : Time) (order : List Part) : LeavesNoneWaiting (frameMark f period order) := by
  intro s h
  have counted : ∀ r, (s.setFr f r).noneWaits = true := fun r => noneWaits_of_frame h (frame_setFr s f r)
  exact keeps_ite (P := fun t => t.noneWaits = true) h
    (keeps_ite (P := fun t => t.noneWaits = true) (noneWaits_closeFrame f _ order _ (counted _)) (counted _))

theorem noneWaits_lineGap (f : Feed) (order : List Part) : LeavesNoneWaiting (lineGap f order) := by
  intro s h
  refine keeps_ite (P := fun t => t.noneWaits = true) ?_ h
  split
  · exact h
  · exact noneWaits_loseLock f _ none order _ s h

/-! ## The instants of domain 8 -/

theorem noneWaits_instantPart (carried : Bool) (lines : LineSet) (p : Part) :
    LeavesNoneWaiting (instantPart carried lines p) := by
  intro s h
  cases p <;> dsimp only [instantPart]
  case emission => exact noneWaits_of_told h (told_emitTick s)
  case lineWrite n => exact noneWaits_of_told h (told_writeEvent _ _ s)
  case lineOffer l => exact noneWaits_of_frame h (frame_offerLine s lines l)
  case takePoints => exact noneWaits_of_frame h (frame_judgeTakePoints s _)
  case switch => exact noneWaits_switchAt _ _ s h
  case clips => exact noneWaits_of_told h (told_handOverClips _ s)
  case presence l => exact keeps_ite (P := fun t => t.noneWaits = true) (noneWaits_of_told h (told_judgeTrack _ s)) h
  case silence => exact keeps_ite (P := fun t => t.noneWaits = true) (noneWaits_of_same h ⟨rfl, rfl, rfl, rfl⟩) h
  all_goals exact h

theorem noneWaits_takeParts (ticks : List LineSet) (carried : Bool) (taken parts : List Part) :
    LeavesNoneWaiting (takeParts ticks carried taken parts) := by
  induction parts generalizing taken with
  | nil => exact fun s h => h
  | cons p rest ih => exact fun s h => ih _ _ (noneWaits_instantPart _ _ p s h)

theorem noneWaits_runTicks (ticks : List LineSet) (order frameOrder : List Part) :
    LeavesNoneWaiting (runTicks ticks order frameOrder) := fun _ h => noneWaits_takeParts _ _ _ _ _ h

theorem noneWaits_runningTicks (ticks : List LineSet) (order frameOrder : List Part) :
    LeavesNoneWaiting (runningTicks ticks order frameOrder) := fun s h =>
  noneWaits_takeParts _ _ _ _ _ (noneWaits_runTicks ticks order frameOrder s h)

theorem noneWaits_endingTicks (realign : Bool) (ticks : List LineSet) (order frameOrder : List Part) :
    LeavesNoneWaiting (endingTicks realign ticks order frameOrder) := fun s h =>
  noneWaits_takeParts _ _ _ _ _
    (noneWaits_of_frame (noneWaits_runTicks ticks order frameOrder s h) (frame_turnFrame8 _ realign))

theorem noneWaits_setTickEvent (e : Time) (lines : LineSet) (order frameOrder : List Part) :
    LeavesNoneWaiting (setTickEvent e lines order frameOrder) := by
  intro s h
  have passed : (passTime e s).noneWaits = true := h
  have ended := keeps_ite (P := fun t => t.noneWaits = true) (c := frameTicks (passTime e s).ru ≤ (passTime e s).ru.ticks)
    (noneWaits_endingTicks false [] [] frameOrder (passTime e s) passed) passed
  exact keeps_ite (P := fun t => t.noneWaits = true) h (keeps_ite (P := fun t => t.noneWaits = true)
    (noneWaits_endingTicks _ _ _ _ _ ended) (noneWaits_runningTicks _ _ _ _ ended))

theorem noneWaits_pulseEvent (e : Time) (owed : OwedTicks) (frameOrder : List Part) :
    LeavesNoneWaiting (pulseEvent e owed frameOrder) := by
  intro s h
  have locked : ((passTime e s).setRu { (passTime e s).ru with state := .locked }).noneWaits = true := h
  unfold pulseEvent
  dsimp only
  split
  · have ended := noneWaits_endingTicks true [] [] frameOrder _ locked
    have restored := noneWaits_of_told ended (told_report .referenceRestored .reference _)
    exact noneWaits_of_frame restored (frame_setRu _ _)
  · exact keeps_ite (P := fun t => t.noneWaits = true) (noneWaits_endingTicks _ _ _ _ _ h) h

theorem noneWaits_waitTimeoutEvent (e : Time) (owed : OwedTicks) (frameOrder : List Part) :
    LeavesNoneWaiting (waitTimeoutEvent e owed frameOrder) := fun _ h =>
  keeps_ite (P := fun t => t.noneWaits = true) (noneWaits_endingTicks _ _ _ _ _ h) h

/-! ## An event of a quiet part -/

/-- An event that leaves no command waiting is its own effect (R164). -/
theorem event_of_quiet {g : State → State} (leaves : LeavesNoneWaiting g) {s : State} (h : s.quiet = true) :
    event g s = g s := by
  rw [event_of_awake _ _ (awake_of_quiet h)]
  exact finish_of_noneWaits _ (leaves s (noneWaits_of_quiet h))

theorem feedEvent_of_quiet {g : State → State} (leaves : LeavesNoneWaiting g) {s : State} (h : s.quiet = true) :
    feedEvent g s = g s := by
  rw [feedEvent_of_awake _ _ (awake_of_quiet h)]
  exact finish_of_noneWaits _ (leaves s (noneWaits_of_quiet h))

/-- At most one command is in flight in a quiet part: at the PC or at the CE (R164). -/
theorem commandsInFlight_of_quiet {s : State} (h : s.quiet = true) : s.commandsInFlight ≤ 1 := by
  have fits : s.flightFits = true := by
    unfold State.quiet at h
    simp only [Bool.and_eq_true] at h
    exact h.2
  unfold State.flightFits at fits
  split at fits <;> rw [beq_iff_eq] at fits <;> omega

/-- No request with the CE is a command's. -/
def NoCommandRequests (s : State) : Prop := ∀ r ∈ requests s.ce, r.isCommand = false

theorem noCommandRequests_of_checking {s : State} (h : s.quiet = true) (busy : s.pc.state ≠ .idle) : NoCommandRequests s := by
  have few := commandsInFlight_of_quiet h
  rw [commandsInFlight_eq, if_neg busy] at few
  have none : (requests s.ce).countP Requester.isCommand = 0 := by omega
  exact fun r mem => Bool.eq_false_iff.mpr (List.countP_eq_zero.mp none r mem)

/-! ## Where no request is a command's -/

theorem validate_sameExecutor {r : Requester} (h : r.isCommand = false) (s : State) : SameExecutor s (validate r s) := by
  have refused : ∀ result v o words, SameExecutor s (refuseCommit r result v o words s) := fun result v o words => by
    have marked := SameExecutor.of_frame (frame_setCe s { s.ce with lastSource := some r, lastResult := result })
    unfold refuseCommit
    cases r with
    | command b => cases h
    | cue c => exact (marked.trans (.of_frame (frame_setCue _ c _))).trans (.of_told (told_report _ _ _))
    | failsafe => exact marked.trans (.of_told (told_report _ _ _))
  exact keeps_ite (refused _ _ _ _) (keeps_ite (refused _ _ _ _) (.of_frame (frame_acceptCommit s r _)))

theorem takeWaiting_sameExecutor {order : List Requester} (h : ∀ r ∈ order, r.isCommand = false) (s : State) :
    SameExecutor s (takeWaiting order s) := by
  induction order generalizing s with
  | nil => exact SameExecutor.refl s
  | cons r rest ih =>
    have left := (SameExecutor.of_frame (frame_setCe s { s.ce with waiting := rest })).trans (.of_frame (frame_leaveOrder _ r))
    have judged := left.trans (validate_sameExecutor (h r List.mem_cons_self) _)
    exact keeps_ite (P := SameExecutor s) judged
      (judged.trans (ih (fun r mem => h r (List.mem_cons_of_mem _ mem)) _))

theorem endCommit_sameExecutor {c : InFlight} (h : c.requester.isCommand = false) (s : State) :
    SameExecutor s (endCommit c s) := by
  unfold endCommit
  split
  case h_1 b command =>
    rw [command] at h
    cases h
  case h_2 i cue =>
    have recorded := SameExecutor.of_frame (frame_setCue s i { s.cues.get i with outcome := cueCompletion c })
    exact keeps_ite recorded (recorded.trans (.of_told (told_report _ _ _)))
  case h_3 => exact SameExecutor.refl s

theorem switchAt_sameExecutor {s : State} (h : NoCommandRequests s) (d : Domain) (running : Bool) :
    SameExecutor s (switchAt d running s) := by
  have moved := unmoved_switchDomain d running s
  have none : ∀ r ∈ requests (switchDomain d running s).ce, r.isCommand = false := by
    rw [requests_of_unmoved moved]
    exact h
  unfold switchAt completeIfSwitched
  split
  case h_1 => exact .of_unmoved moved
  case h_2 c inFlight =>
    rw [requests_of_some inFlight] at none
    refine keeps_ite (P := SameExecutor s) ?_ (.of_unmoved moved)
    unfold completeCommit
    dsimp only
    have marked := (SameExecutor.of_unmoved moved).trans ((SameExecutor.of_frame (frame_setTpt (switchDomain d running s)
      (unreserve (switchDomain d running s).tpt))).trans (.of_frame (frame_setCe _ { (switchDomain d running s).ce with
        inFlight := .none, commitCount := (switchDomain d running s).ce.commitCount + 1, lastSource := some c.requester, lastResult := .done })))
    refine (marked.trans (endCommit_sameExecutor (none _ List.mem_cons_self) _)).trans (takeWaiting_sameExecutor ?_ _)
    rw [(frame_endCommit _ c).ce rfl]
    exact fun r mem => none r (List.mem_cons_of_mem _ mem)

end Machine

end Sys2Proof
end

section
/-! PROOF. The line of a running domain (R33 to R38, R42, R43): what its emissions leave alone, what its slots become, and what a line with one sound packet does. -/

namespace Sys2Proof

namespace Machine

/-! ## What one domain's work leaves of the others -/

theorem KeepsPatch.refl (d : Domain) (ring : RingNo → Prop) (s : State) : KeepsPatch d ring s s :=
  ⟨rfl, rfl, fun _ _ => rfl, fun _ _ => rfl, fun _ _ _ => rfl⟩

theorem KeepsPatch.trans {d : Domain} {ring : RingNo → Prop} {s t u : State} (h : KeepsPatch d ring s t)
    (k : KeepsPatch d ring t u) : KeepsPatch d ring s u := by
  obtain ⟨ce, active, fmt, ramps, tpt⟩ := h
  obtain ⟨ce', active', fmt', ramps', tpt'⟩ := k
  refine ⟨ce'.trans ce, active'.trans active, fun g off => (fmt' g off).trans (fmt g off),
    fun x off => (ramps' x off).trans (ramps x off), fun i off away => ?_⟩
  have same := tpt i off away
  exact (tpt' i (by rwa [same]) (by rwa [same])).trans same

theorem KeepsPatch.mono {d : Domain} {ring ring' : RingNo → Prop} {s t : State} (h : KeepsPatch d ring s t)
    (wider : ∀ r, ring r → ring' r) : KeepsPatch d ring' s t := by
  obtain ⟨ce, active, fmt, ramps, tpt⟩ := h
  exact ⟨ce, active, fmt, ramps, fun i off away => tpt i off fun on => away (wider _ on)⟩

theorem KeepsPatch.of_frame {t : Touch} {s s' : State} (k : Frame t s s') (d : Domain) (ring : RingNo → Prop)
    (ce : t.ce = false := by rfl) (active : t.active = false := by rfl) (fmt : t.fmt = false := by rfl)
    (ramps : t.ramps = false := by rfl) (tpt : t.tpt = false := by rfl) : KeepsPatch d ring s s' :=
  ⟨k.ce ce, k.active active, fun _ _ => by rw [k.fmt fmt], fun _ _ => by rw [k.ramps ramps],
    fun _ _ _ => by rw [k.tpt tpt]⟩

/-- Of the clip marks and of the CM's rounds, those of domain d alone may change. -/
structure KeepsMarks (d : Domain) (s t : State) : Prop where
  clips : ∀ x, destDomain x ≠ d → t.clips.get x = s.clips.get x
  rounds : ∀ e, e ≠ d → t.cm.rounds.get e = s.cm.rounds.get e

theorem KeepsMarks.refl (d : Domain) (s : State) : KeepsMarks d s s := ⟨fun _ _ => rfl, fun _ _ => rfl⟩

theorem KeepsMarks.trans {d : Domain} {s t u : State} (h : KeepsMarks d s t) (k : KeepsMarks d t u) : KeepsMarks d s u :=
  ⟨fun x off => (k.clips x off).trans (h.clips x off), fun e off => (k.rounds e off).trans (h.rounds e off)⟩

theorem KeepsMarks.of_frame {t : Touch} {s s' : State} (k : Frame t s s') (d : Domain) (clips : t.clips = false := by rfl)
    (cm : t.cm = false := by rfl) : KeepsMarks d s s' :=
  ⟨fun _ _ => by rw [k.clips clips], fun _ _ => by rw [k.cm cm]⟩

theorem setRound_rounds_other {d e : Domain} (h : e ≠ d) (s : State) (r : Round) :
    (s.setRound d r).cm.rounds.get e = s.cm.rounds.get e := Table.get_set_other _ _ _ _ (Ne.symm h)

theorem chooseChecked_rounds_other {d e : Domain} (h : e ≠ d) (s : State) :
    (chooseChecked d s).cm.rounds.get e = s.cm.rounds.get e :=
  keeps_ite (P := fun t => t.cm.rounds.get e = s.cm.rounds.get e) (setRound_rounds_other h s _) rfl

theorem compareChecked_rounds_other {d e : Domain} (h : e ≠ d) (v : Dest → Int) (s : State) :
    (compareChecked d v s).cm.rounds.get e = s.cm.rounds.get e := by
  unfold compareChecked
  dsimp only
  split
  · rfl
  · refine keeps_ite (P := fun t => t.cm.rounds.get e = s.cm.rounds.get e) ?_ rfl
    rw [(frame_report _ _ _).cm rfl, setRound_rounds_other h]

/-- The CM after an emission is as its comparison leaves it (R144, R145). -/
theorem emission_cm (d : Domain) (s : State) : (emission d s).cm = (emissionRead d (underruns d s)).cm := by
  rw [emission_eq, (frame_emitTo _ d _).cm rfl, (frame_advanceRamps _ d).cm rfl, (frame_advanceTakes _ d).cm rfl]

theorem emission_keepsMarks (d : Domain) (s : State) : KeepsMarks d s (emission d s) where
  clips x off := by rw [emission_clips, beq_false_of_ne off, Bool.false_and, Bool.or_false]
  rounds e off := by
    rw [emission_cm, emissionRead, (frame_markClips _ d).cm rfl, compareChecked_rounds_other off,
      chooseChecked_rounds_other off, (frame_underruns s d).cm rfl]

theorem emission_keepsPatch (d : Domain) (s : State) : KeepsPatch d (fun _ => False) s (emission d s) := by
  have frame := frame_emission s d
  refine ⟨frame.ce rfl, frame.active rfl, fun g off => ?_, fun x off => ?_, fun i off _ => emission_get_other (.inl off)⟩
  · have k := (emission_beside d s).fmt rfl
    rw [emission_eq, emitTo]
    generalize advanceRamps d _ = u at k ⊢
    split
    case h_1 f on =>
      have other : f ≠ g := fun same => off <| by
        unfold domainFeed? at on
        split at on
        · exact Fin.ext ((congrArg Fin.val same).symm.trans (congrArg Fin.val (Option.some.inj on)).symm)
        · cases on
      rw [setFmt_get, if_neg other, k]
    case h_2 => exact congrArg (Table.get · g) k
  · rw [emission_ramps, if_neg off]

/-- The settings stand where no block that holds them is touched. -/
theorem keepsSettings_of_frame {t : Touch} {s s' : State} (k : Frame t s s') (pins : t.pins = false := by rfl)
    (s0 : t.s0 = false := by rfl) (s1 : t.s1 = false := by rfl) (failsafe : t.failsafe = false := by rfl)
    (guards : t.guards = false := by rfl) (store : t.store = false := by rfl) (pending : t.pending = false := by rfl)
    (settings : t.settings = false := by rfl) : KeepsSettings s s' := by
  have set := k.settings settings
  unfold State.settings at set
  simp only [Prod.mk.injEq] at set
  exact ⟨k.pins pins, k.s0 s0, k.s1 s1, k.failsafe failsafe, k.guards guards, k.store store, k.pending pending, set⟩

/-! ## The emissions of a line -/

/-- The emissions of a line, one after another (R43). -/
def emitAll (f : Feed) (l : List Nat) (s : State) : State := walk l (fun _ => emitOnce f) s

theorem frame_emitAll (f : Feed) (l : List Nat) (s : State) :
    Frame { tpt := true, ramps := true, log := true, mgmt := true, clips := true, cm := true, fmt := true, lineOut := true }
      s (emitAll f l s) := Frame.walk (fun _ s => frame_emitOnce s f) l s

theorem told_emitAll (f : Feed) (l : List Nat) (s : State) : OnlyTold s (emitAll f l s) :=
  OnlyTold.walk (fun _ s => .ite (told_emission _ s) (OnlyTold.refl s)) l s

theorem emitAll_keepsMarks (f : Feed) (l : List Nat) (s : State) : KeepsMarks (feedDomain f) s (emitAll f l s) :=
  keeps_walk (P := KeepsMarks (feedDomain f) s)
    (fun _ u h => keeps_ite (h.trans (emission_keepsMarks _ u)) h) l s (.refl _ s)

theorem emitAll_keepsPatch (f : Feed) (l : List Nat) (s : State) :
    KeepsPatch (feedDomain f) (fun _ => False) s (emitAll f l s) :=
  keeps_walk (P := KeepsPatch (feedDomain f) (fun _ => False) s)
    (fun _ u h => keeps_ite (h.trans (emission_keepsPatch _ u)) h) l s (.refl _ _ s)

theorem emission_lineOut_feed (f : Feed) (s : State) : (emission (feedDomain f) s).lineOut = s.lineOut := (emission_feed f s).1

theorem emitAll_lineOut (f : Feed) (l : List Nat) (s : State) : (emitAll f l s).lineOut = s.lineOut :=
  keeps_walk (P := fun u => u.lineOut = s.lineOut)
    (fun _ u h => keeps_ite (P := fun u => u.lineOut = s.lineOut) ((emission_lineOut_feed f u).trans h) h) l s rfl

/-- A running domain makes each of its emissions, and each gives its OF one set more (R35, R43). -/
theorem emitAll_sets {f : Feed} {s : State} (running : runningState (s.fr.get f).state = true) (l : List Nat) :
    ((emitAll f l s).fmt.get f).sets.length = (s.fmt.get f).sets.length + l.length := by
  induction l generalizing s with
  | nil => rfl
  | cons n l ih =>
    have emits : emitOnce f s = emission (feedDomain f) s := if_pos ((domainRunning_feedDomain s f).trans running)
    have still : runningState ((emission (feedDomain f) s).fr.get f).state = true := by
      rw [(frame_emission s _).fr rfl]
      exact running
    rw [emitAll, walk_cons, emits]
    refine (ih still).trans ?_
    rw [(emission_feed f s).2, Table.get_set_same, List.length_append, List.length_cons, List.length_nil, List.length_cons]
    omega

/-! ## The line sent -/

theorem noticeForNewest_setFmt (f : Feed) (o : Formatter) (s : State) :
    noticeForNewest (s.setFmt f o) = (noticeForNewest s).setFmt f o := by
  unfold noticeForNewest
  simp only [State.setFmt_fields]
  split
  · split <;> rfl
  · rfl

theorem drainQueue_setFmt (f : Feed) (o : Formatter) (s : State) :
    drainQueue f (s.setFmt f o) = (drainQueue f s).setFmt f o := by
  unfold drainQueue
  simp only [State.setFmt_fields]
  split
  · split
    · exact noticeForNewest_setFmt f o (s.setMgmt { s.mgmt with notice := none })
    · rfl
  · rfl

/-- The OF after it has sent a line of a running domain: the line, its built counts and its frame-first marks (R33, R35). -/
def Formatter.sent (o : Formatter) (builds : Quad → Bool) (l : OutLine) : Formatter :=
  { o with
    built := Table.tab 4 fun q => if builds q then o.built.get q + 1 else o.built.get q
    firstSent := Table.tab 4 fun q => builds q || o.firstSent.get q
    line := some l }

/-- The OF of feed f after the line that corresponds to a record. -/
def sentBy (f : Feed) (line : Nat) (r : LineRecord) (s : State) : Formatter :=
  (s.fmt.get f).sent (fun q => buildsOn f q line s)
    ⟨r.picture, padded r.blanking.length (slotWords (soundSlots f line s) (extraSlot f s))⟩

theorem sendBuilt_eq (f : Feed) (line : Nat) (r : LineRecord) (s : State) : sendBuilt f line r s =
    pathCheckLine f line (soundSlots f line s) ((drainQueue f s).setFmt f (sentBy f line r s)) := by
  unfold sendBuilt
  dsimp only
  rw [countBuilt, drainQueue_setFmt, sendLine, setFmt_setFmt, setFmt_get, if_pos rfl]
  rfl

/-- What the PC's look at a line leaves. -/
theorem sendBuilt_frame (f : Feed) (line : Nat) (r : LineRecord) (s : State) :
    Frame { pc := true, mgmt := true } ((drainQueue f s).setFmt f (sentBy f line r s)) (sendBuilt f line r s) := by
  rw [sendBuilt_eq]
  exact (frame_pathCheckLine _ f line _).mono

theorem sendBuilt_fmt (f : Feed) (line : Nat) (r : LineRecord) (s : State) :
    (sendBuilt f line r s).fmt = s.fmt.set f (sentBy f line r s) := by
  rw [(sendBuilt_frame f line r s).fmt rfl, State.setFmt, (frame_drainQueue s f).fmt rfl]

theorem sendOutput_fmt_of_running {f : Feed} {s : State} (h : runningState (s.fr.get f).state = true) (line : Nat)
    (r : LineRecord) : (sendOutput f line r s).fmt = s.fmt.set f (sentBy f line r s) := by
  rw [sendOutput_of_running h, sendBuilt_fmt]

theorem pathCheckLine_of_not {f : Feed} {s : State} (h : s.pc.state ≠ .checking ∨ s.pc.feed ≠ f) (line : Nat)
    (slots : Table 4 (Option Packet)) : pathCheckLine f line slots s = s :=
  if_neg fun on => h.elim (fun idle => idle on.1) (fun other => other on.2)

theorem slotWords_eq (slots : Table 4 (Option Packet)) (extra : Option Packet) : slotWords slots extra =
    [slots.get 0, slots.get 1, slots.get 2, slots.get 3, extra].flatMap fun p => p.elim [] Packet.words := by
  rw [slotWords, Table.cells_eq_map_get]
  rfl

theorem noneWaits_drainQueue (f : Feed) : LeavesNoneWaiting (drainQueue f) := by
  intro s h
  refine keeps_ite (P := fun t => t.noneWaits = true) (keeps_ite (P := fun t => t.noneWaits = true) ?_ h) h
  have cleared : (s.setMgmt { s.mgmt with notice := none }).noneWaits = true := h
  exact noneWaits_of_told cleared (told_noticeForNewest _)

theorem noneWaits_sendOutput (f : Feed) (line : Nat) (r : LineRecord) : LeavesNoneWaiting (sendOutput f line r) := by
  intro s h
  refine keeps_ite (P := fun t => t.noneWaits = true) ?_ (noneWaits_of_frame h (frame_sendEmpty s f r))
  rw [sendBuilt_eq]
  exact noneWaits_pathCheckLine f line _ _ (noneWaits_of_frame (noneWaits_drainQueue f s h) (frame_setFmt _ f _))

/-! ## A line with one sound packet -/

/-- The quads alone of the FR's fields move with a sequence check and with an accepted packet. -/
theorem checkSequence_fr (f : Feed) (q : Quad) (count : BitVec 4) (s : State) :
    ∃ quads, (checkSequence f q count s).fr.get f = { s.fr.get f with quads := quads } := by
  have told : (if ((s.fr.get f).quads.get q).basePending = false ∧ count ≠ ((s.fr.get f).quads.get q).lastCount + 1 then
      report .sequenceGap (.inputQuad f q) s else s).fr = s.fr :=
    keeps_ite (P := fun t => t.fr = s.fr) ((frame_report s _ _).fr rfl) rfl
  unfold checkSequence
  dsimp only
  rw [changeQuad_fr_same, told]
  exact ⟨_, rfl⟩

theorem makePresent_fr (f : Feed) (q : Quad) (s : State) :
    ∃ quads, (makePresent f q s).fr.get f = { s.fr.get f with quads := quads } := by
  by_cases h : ((s.fr.get f).quads.get q).state = .present
  · rw [makePresent_of_present h]
    exact ⟨_, rfl⟩
  · rw [makePresent_of_not_present h, (frame_resetRing _ _).fr rfl, setFr_get, if_pos rfl]
    exact ⟨_, rfl⟩

theorem acceptSound_fr (f : Feed) (q : Quad) (p : Packet) (s : State) :
    ∃ quads, (acceptSound f q p s).fr.get f = { s.fr.get f with quads := quads } := by
  obtain ⟨quads, present⟩ := makePresent_fr f q s
  rw [acceptSound_eq, changeQuad_fr_same, soundWritten_fr, present]
  exact ⟨_, rfl⟩

/-- A sound packet that R24 and R25 let through, first of its quad in the line of a LOCKED feed (R26 to R28). -/
theorem soundPacket_accepted {f : Feed} {q : Quad} {p : Packet} {line : Nat} {s : State}
    (locked : (s.fr.get f).state = .locked) (unclaimed : (s.fr.get f).claimed.get q = false)
    (first : (s.fr.get f).remembered.get q = none) (field : headerField p.header = q.val) (good : p.good = true)
    (count : p.soundHead.setCount = 1 ∨ p.soundHead.setCount = 2)
    (length : headerLength p.header = 1 + 6 * p.soundHead.setCount.toNat) (carrying : 2 < line) :
    let t := soundPacket f line p s
    (t.fr.get f).remembered.get q = some p ∧ ((t.fr.get f).quads.get q).state = .present ∧
      ((t.fr.get f).quads.get q).lastCount = p.soundHead.count ∧
      (t.rings.get (feedRing f q)).written = (if ((s.fr.get f).quads.get q).state = .present then
        (s.rings.get (feedRing f q)).written else 0) + p.soundHead.setCount.toNat ∧
      ∀ g, g ≠ feedRing f q → t.rings.get g = s.rings.get g := by
  have running : runningState (s.fr.get f).state = true := by rw [locked]; rfl
  have kept : remember f q p s = s.setFr f { s.fr.get f with remembered := (s.fr.get f).remembered.set q (some p) } :=
    remember_of_first running first p
  have fr : (remember f q p s).fr.get f = { s.fr.get f with remembered := (s.fr.get f).remembered.set q (some p) } := by
    rw [kept, setFr_get, if_pos rfl]
  have placed : misplaced ((remember f q p s).fr.get f) line q p = false := by
    rw [fr]
    exact misplaced_eq_false unclaimed count length carrying
  dsimp only
  rw [soundPacket_of_quad (quad?_of_field field), if_pos locked, lockedSound_of_placed f line q p _ good placed]
  have claimed : (claim f q (remember f q p s)).fr.get f = { s.fr.get f with
      remembered := (s.fr.get f).remembered.set q (some p), claimed := (s.fr.get f).claimed.set q true } := by
    rw [claim_fr_same, fr]
  have claimedRings : (claim f q (remember f q p s)).rings = s.rings := by rw [kept]; rfl
  generalize claim f q (remember f q p s) = u at claimed claimedRings
  have quad := checkSequence_quad f q p.soundHead.count u
  obtain ⟨quads, checked⟩ := checkSequence_fr f q p.soundHead.count u
  have rings := ((frame_checkSequence u f q p.soundHead.count).rings rfl).trans claimedRings
  generalize checkSequence f q p.soundHead.count u = w at quad checked rings
  obtain ⟨quads', accepted⟩ := acceptSound_fr f q p w
  rw [claimed] at quad checked
  have state : ((w.fr.get f).quads.get q).state = ((s.fr.get f).quads.get q).state := by rw [quad]
  refine ⟨?_, ?_, ?_, ?_, fun g other => ?_⟩
  · rw [accepted, checked]
    exact Table.get_set_same _ _ _
  · rw [acceptSound_quad]
  · rw [acceptSound_quad, quad]
  · rw [acceptSound_rings, Table.get_set_same, Ring.written_pushes, soundSets_length, makePresent_ring, state, rings]
    split <;> rfl
  · rw [acceptSound_rings, Table.get_set_other _ _ _ _ (Ne.symm other), makePresent_ring_other other, rings]

theorem readLine_cons (f : Feed) (line : Nat) (control : Bool) (x : Scanned) (rest : List Scanned) (taken : Nat)
    (es : List Nat) (s : State) : readLine f line control (x :: rest) taken es s =
      readLine f line control rest (taken + 1) (es.dropWhile fun n => decide (n ≤ taken))
        (takeScanned f line control x (emitAll f (es.takeWhile fun n => decide (n ≤ taken)) s)) := rfl

theorem readLine_nil (f : Feed) (line : Nat) (control : Bool) (taken : Nat) (es : List Nat) (s : State) :
    readLine f line control [] taken es s = emitAll f es s := rfl

theorem takeScanned_of_on {f : Feed} {s : State} (h : (s.fr.get f).state ≠ .off) (line : Nat) (control : Bool) (p : Packet) :
    takeScanned f line control (.packet p) s = takePacket f line control p s := if_neg h

theorem lineEmissions_of_detected {f : Feed} {fm : Format} {s : State} (h : (s.fr.get f).detected = some fm) (line : Nat)
    (es : List Nat) : lineEmissions f line es s =
      (List.range (setsOnFrameLine fm (s.fmt.get f).phase line)).map fun i => es.getD i 0 := by
  rw [lineEmissions, h]

theorem exec_lineRecord_of_on {f : Feed} {s : State} (awake : s.awake = true) (on : (s.fr.get f).state ≠ .off)
    (r : LineRecord) (e : List Nat) : let line := frameLine (s.fr.get f) r.frameMark
    let opened := openLine f r.frameMark s
    exec (.lineRecord f r e) s = .next (finish (sendOutput f line r (readLine f line (s.mgmt.controlFeed = f)
      (scanLine r.blanking) 0 (lineEmissions f line e opened) opened))) := by
  dsimp only
  rw [← takeLine_of_on on]
  exact congrArg Host.Outcome.next (feedEvent_of_awake _ s awake)

theorem openLine_fr_other {f g : Feed} (h : g ≠ f) (mark : Bool) (s : State) :
    (openLine f mark s).fr.get g = s.fr.get g := by
  rw [openLine_eq, (frame_setFmt _ f _).fr rfl, setFr_get, if_neg (Ne.symm h)]

theorem openLine_fmt (f : Feed) (mark : Bool) (s : State) :
    (openLine f mark s).fmt = s.fmt.set f { s.fmt.get f with sets := [] } := rfl

/-- An operation whose block of the OFs moves in feed f alone. -/
theorem fmt_other_of_set {f g : Feed} {s t : State} {o : Formatter} (h : t.fmt = s.fmt.set f o)
    (off : feedDomain g ≠ feedDomain f) : t.fmt.get g = s.fmt.get g := by
  rw [h, Table.get_set_other _ _ _ _ fun same => off (congrArg feedDomain same.symm)]

theorem openLine_keepsPatch (f : Feed) (mark : Bool) (s : State) :
    KeepsPatch (feedDomain f) (fun _ => False) s (openLine f mark s) :=
  ⟨rfl, rfl, fun _ off => fmt_other_of_set (openLine_fmt f mark s) off, fun _ _ => rfl, fun _ _ _ => rfl⟩

theorem sendOutput_keepsPatch (f : Feed) (line : Nat) (r : LineRecord) (s : State) :
    KeepsPatch (feedDomain f) (fun _ => False) s (sendOutput f line r s) := by
  have frame := frame_sendOutput s f line r
  refine ⟨frame.ce rfl, frame.active rfl, fun g off => ?_, fun _ _ => by rw [frame.ramps rfl], fun _ _ _ => by
    rw [frame.tpt rfl]⟩
  cases running : runningState (s.fr.get f).state with
  | true => exact fmt_other_of_set (sendOutput_fmt_of_running running line r) off
  | false =>
    rw [sendOutput_of_stopped running]
    exact fmt_other_of_set rfl off

theorem emitAll_phase (f : Feed) (l : List Nat) (s : State) :
    ((emitAll f l s).fmt.get f).phase = (s.fmt.get f).phase :=
  (Steady.walk (fun _ u => steady_emitOnce f u) l s).phase f

/-- The row of a record without a packet in a running domain: as many emissions as the distribution gives the line. -/
theorem exec_lineRecord_bare {f : Feed} {fm : Format} {r : LineRecord} {s : State} (quiet : s.quiet = true)
    (running : runningState (s.fr.get f).state = true) (detected : (s.fr.get f).detected = some fm)
    (unmarked : Config.marker ∉ r.blanking) (e : List Nat) : let line := frameLine (s.fr.get f) r.frameMark
    ∃ l : List Nat, l.length = setsOnFrameLine fm (s.fmt.get f).phase line ∧
      exec (.lineRecord f r e) s = .next (sendOutput f line r (emitAll f l (openLine f r.frameMark s))) := by
  have on : (s.fr.get f).state ≠ .off := fun off => by rw [off] at running; cases running
  have row := exec_lineRecord_of_on (awake_of_quiet quiet) on r e
  have detected' : ((openLine f r.frameMark s).fr.get f).detected = some fm := by rw [openLine_fr]; exact detected
  have phase : ((openLine f r.frameMark s).fmt.get f).phase = (s.fmt.get f).phase := by
    rw [openLine_fmt, Table.get_set_same]
  dsimp only at row ⊢
  rw [scanLine_unmarked unmarked, readLine_nil, lineEmissions_of_detected detected', phase] at row
  refine ⟨_, by rw [List.length_map, List.length_range], row.trans (congrArg Host.Outcome.next (finish_of_noneWaits _ ?_))⟩
  have waits := noneWaits_of_frame (noneWaits_of_quiet quiet) (frame_openLine s f r.frameMark)
  exact noneWaits_sendOutput _ _ _ _ (noneWaits_of_told waits (told_emitAll _ _ _))

/-- Settles O15: the record's row, the equations of the reading, a line of one sound packet, the output line, and a line without a packet. -/
theorem runningDomainSendsLine : Obligations.RunningDomainSendsLine := by
  unfold Obligations.RunningDomainSendsLine
  refine ⟨fun f r e s awake on => exec_lineRecord_of_on awake on r e, ?reading, ?packet, ?output, ?bare⟩
  case reading =>
    intro f line control taken es s
    dsimp only
    refine ⟨fun mark => rfl, rfl, fun x rest => rfl, fun x off => if_pos off, fun p on => takeScanned_of_on on line control p,
      fun none => ?_, fun fm detected => lineEmissions_of_detected detected line es⟩
    rw [lineEmissions, none]
  case packet =>
    intro f q p n r e s quiet locked blanking content sound field good count length carrying
    have on : (s.fr.get f).state ≠ .off := by rw [locked]; nofun
    have scanned : scanLine r.blanking = [.packet p] := by
      have scan := scanLine_packets (ps := [p]) (fun k mem => by rw [List.mem_singleton.mp mem]; exact content) n
      rwa [List.flatMap_cons, List.flatMap_nil, List.append_nil, ← blanking] at scan
    have row := exec_lineRecord_of_on (awake_of_quiet quiet) on r e
    dsimp only at row
    rw [scanned, readLine_cons, readLine_nil] at row
    generalize lineEmissions f (frameLine (s.fr.get f) r.frameMark) e (openLine f r.frameMark s) = es at row
    have opened : (openLine f r.frameMark s).fr.get f = (s.fr.get f).opened r.frameMark := openLine_fr f _ s
    have openedRings := (frame_openLine s f r.frameMark).rings rfl
    have waits := noneWaits_of_frame (noneWaits_of_quiet quiet) (frame_openLine s f r.frameMark)
    generalize openLine f r.frameMark s = u at row opened openedRings waits
    have before := frame_emitAll f (es.takeWhile fun n => decide (n ≤ 0)) u
    have fr : (emitAll f (es.takeWhile fun n => decide (n ≤ 0)) u).fr.get f = (s.fr.get f).opened r.frameMark := by
      rw [before.fr rfl]
      exact opened
    have rings := (before.rings rfl).trans openedRings
    have waits := noneWaits_of_told waits (told_emitAll f (es.takeWhile fun n => decide (n ≤ 0)) u)
    generalize emitAll f (es.takeWhile fun n => decide (n ≤ 0)) u = v at row fr rings waits
    have lockedNow : (v.fr.get f).state = .locked := by rw [fr]; exact locked
    rw [takeScanned_of_on (by rw [lockedNow]; nofun), takePacket_of_sound sound] at row
    have accepted := soundPacket_accepted (line := frameLine (s.fr.get f) r.frameMark) lockedNow
      (by rw [fr]; exact Table.get_fill _ _) (by rw [fr]; exact Table.get_fill _ _) field ((good_iff p).mpr good) count length carrying
    have waits := noneWaits_of_told waits (told_soundPacket f (frameLine (s.fr.get f) r.frameMark) p v)
    dsimp only at accepted
    rw [fr, rings] at accepted
    generalize soundPacket f (frameLine (s.fr.get f) r.frameMark) p v = w at row accepted waits
    have after := frame_emitAll f (es.dropWhile fun n => decide (n ≤ 0)) w
    have waits := noneWaits_of_told waits (told_emitAll f (es.dropWhile fun n => decide (n ≤ 0)) w)
    generalize emitAll f (es.dropWhile fun n => decide (n ≤ 0)) w = x at row after waits
    have sent := frame_sendOutput x f (frameLine (s.fr.get f) r.frameMark) r
    rw [finish_of_noneWaits _ (noneWaits_sendOutput _ _ _ _ waits)] at row
    refine ⟨_, row, ?_⟩
    rw [sent.fr rfl, sent.rings rfl, after.fr rfl, after.rings rfl]
    exact accepted
  case output =>
    intro f line r s
    dsimp only
    rw [domainRunning_feedDomain, ← slotWords_eq]
    refine ⟨fun running => ?_, fun stopped => sendOutput_of_stopped stopped line r⟩
    have fmt := sendOutput_fmt_of_running running line r
    have same : (sendOutput f line r s).fmt.get f = sentBy f line r s := by rw [fmt, Table.get_set_same]
    rw [same, sendOutput_of_running running]
    refine ⟨⟨sentBy f line r s, sendBuilt_eq f line r s, rfl, rfl⟩, ?_, fun unchecked => ?_, rfl, rfl, fun g other => ?_,
      fun q => ?_⟩
    · rw [(sendBuilt_frame f line r s).log rfl]
      rfl
    · have pc : ((drainQueue f s).setFmt f (sentBy f line r s)).pc = s.pc := (frame_drainQueue s f).pc rfl
      rw [sendBuilt_eq, pathCheckLine_of_not (by rw [pc]; exact unchecked)]
      exact ⟨rfl, pc⟩
    · rw [sendBuilt_fmt, Table.get_set_other _ _ _ _ (Ne.symm other)]
    · have built : (sentBy f line r s).built.get q =
          if buildsOn f q line s then (s.fmt.get f).built.get q + 1 else (s.fmt.get f).built.get q := Table.get_tab _ _
      have first : (sentBy f line r s).firstSent.get q = (buildsOn f q line s || (s.fmt.get f).firstSent.get q) :=
        Table.get_tab _ _
      have builds := buildsOn_iff f line q s
      rw [built, first]
      refine ⟨fun ⟨carrying, embeds, sets⟩ => ?_, fun not => ?_⟩
      · rw [builds.mpr ⟨embeds, carrying, sets⟩]
        exact ⟨rfl, rfl⟩
      · rw [Bool.eq_false_iff.mpr fun on => not ⟨(builds.mp on).2.1, (builds.mp on).1, (builds.mp on).2.2⟩]
        exact ⟨rfl, rfl⟩
  case bare =>
    intro f fm r e s quiet running detected unmarked
    dsimp only
    obtain ⟨l, count, row⟩ := exec_lineRecord_bare quiet running detected unmarked e
    have opened := openLine_fr f r.frameMark s
    have sets : ((openLine f r.frameMark s).fmt.get f).sets = [] := by rw [openLine_fmt, Table.get_set_same]
    have phase : ((openLine f r.frameMark s).fmt.get f).phase = (s.fmt.get f).phase := by
      rw [openLine_fmt, Table.get_set_same]
    have running' : runningState ((openLine f r.frameMark s).fr.get f).state = true := by rw [opened]; exact running
    have opens := frame_openLine s f r.frameMark
    have emits := frame_emitAll f l (openLine f r.frameMark s)
    have running'' : runningState ((emitAll f l (openLine f r.frameMark s)).fr.get f).state = true := by
      rw [emits.fr rfl]
      exact running'
    have sends := frame_sendOutput (emitAll f l (openLine f r.frameMark s)) f (frameLine (s.fr.get f) r.frameMark) r
    have sent := sendOutput_fmt_of_running running'' (frameLine (s.fr.get f) r.frameMark) r
    have patch := ((openLine_keepsPatch f r.frameMark s).trans (emitAll_keepsPatch f l _)).trans
      (sendOutput_keepsPatch f (frameLine (s.fr.get f) r.frameMark) r _)
    have marks := ((KeepsMarks.of_frame opens (feedDomain f)).trans (emitAll_keepsMarks f l _)).trans (.of_frame sends (feedDomain f))
    have sameSets := emitAll_sets running' l
    have samePhase := emitAll_phase f l (openLine f r.frameMark s)
    have lineOut := emitAll_lineOut f l (openLine f r.frameMark s)
    have whole : Frame
        { fr := true, fmt := true, tpt := true, ramps := true, log := true, mgmt := true, clips := true, cm := true,
          pc := true, lineOut := true } s _ := (opens.mono.trans emits.mono).trans sends.mono
    rw [sets, List.length_nil, Nat.zero_add, count] at sameSets
    rw [phase] at samePhase
    refine ⟨_, _, row, by rw [sent, Table.get_set_same]; rfl, rfl, ?_, ?_, ?_, ?_, keepsSettings_of_frame whole,
      whole.rings rfl, whole.watch rfl, whole.ru rfl, whole.lineIn rfl, ?_, whole.cues rfl, fun g off => ?_, marks.clips,
      marks.rounds, patch⟩
    · simp only [padded, List.length_append, List.length_replicate]
      omega
    · rw [sent, Table.get_set_same]
      exact sameSets
    · rw [sends.fr rfl, emits.fr rfl, opened]
      rfl
    · rw [sent, Table.get_set_same]
      exact samePhase
    · rw [sends.lineOut rfl, lineOut, opens.lineOut rfl]
    · rw [sends.fr rfl, emits.fr rfl, openLine_fr_other off]

end Machine

end Sys2Proof
end

section
/-! PROOF. The arithmetic of the picture formats (R1, R3, R39, R42): which frames match, and how the sets of a frame are shared out over its lines. -/

namespace Sys2Proof

namespace Machine

/-! ## The format a frame matches -/

theorem frameMatches_iff (fm : Format) (lines : Nat) (period : Time) : frameMatches fm lines period = true ↔
    lines = linesOf fm ∧ 5000 * (period - nominalPeriod fm) ≤ nominalPeriod fm ∧
      5000 * (nominalPeriod fm - period) ≤ nominalPeriod fm := by
  rw [frameMatches, Bool.and_eq_true, Bool.and_eq_true, beq_iff_eq, decide_eq_true_eq, decide_eq_true_eq, and_assoc]

/-- The nominal periods of two formats with the same lines lie further apart than their tolerances reach (R1, R3). -/
theorem nominalPeriods_apart : ∀ a b : Format, linesOf a = linesOf b → a ≠ b →
    5001 * nominalPeriod a < 4999 * nominalPeriod b ∨ 5001 * nominalPeriod b < 4999 * nominalPeriod a := by decide

theorem frameMatches_unique {a b : Format} {lines : Nat} {period : Time} (ha : frameMatches a lines period = true)
    (hb : frameMatches b lines period = true) : a = b := by
  obtain ⟨linesA, aboveA, belowA⟩ := (frameMatches_iff a lines period).mp ha
  obtain ⟨linesB, aboveB, belowB⟩ := (frameMatches_iff b lines period).mp hb
  by_contra differ
  have apart := nominalPeriods_apart a b (linesA.symm.trans linesB) differ
  simp only [Time] at *
  omega

theorem matchFormat_eq_some_iff (lines : Nat) (period : Time) (fm : Format) :
    matchFormat lines period = some fm ↔ frameMatches fm lines period = true := by
  refine ⟨fun found => List.find?_some (p := fun f => frameMatches f lines period) found, fun fits => ?_⟩
  have some : (matchFormat lines period).isSome = true := List.find?_isSome.mpr ⟨fm, List.mem_finRange fm, fits⟩
  obtain ⟨other, found⟩ := Option.isSome_iff_exists.mp some
  rw [found, frameMatches_unique (List.find?_some (p := fun f => frameMatches f lines period) found) fits]

/-! ## Sharing out a number over lines -/

/-- The share of line j, of s sets over c lines (R42). -/
def share (s c j : Nat) : Nat := (j + 1) * s / c - j * s / c

theorem share_add (s c j : Nat) : j * s / c + share s c j = (j + 1) * s / c :=
  Nat.add_sub_cancel' (Nat.div_le_div_right (Nat.mul_le_mul_right s (Nat.le_succ j)))

theorem sum_share (s c n : Nat) : ((List.range n).map (share s c)).sum = n * s / c := by
  induction n with
  | zero => simp
  | succ n ih =>
    rw [List.range_succ, List.map_append, List.sum_append, ih, List.map_cons, List.map_nil, List.sum_cons, List.sum_nil,
      Nat.add_zero, share_add]

/-- A line's share differs from that of a line that gets b sets by what s differs from b times c. -/
theorem share_le {s c b : Nat} (pos : 0 < c) (h : s ≤ b * c) (j : Nat) : share s c j ≤ b := by
  have sum := share_add s c j
  have step : (j + 1) * s / c ≤ j * s / c + b := by
    rw [← Nat.add_mul_div_right _ _ pos]
    exact Nat.div_le_div_right (by rw [Nat.succ_mul]; omega)
  omega

theorem le_share {s c b : Nat} (pos : 0 < c) (h : b * c ≤ s) (j : Nat) : b ≤ share s c j := by
  have sum := share_add s c j
  have step : j * s / c + b ≤ (j + 1) * s / c := by
    rw [← Nat.add_mul_div_right _ _ pos]
    exact Nat.div_le_div_right (by rw [Nat.succ_mul]; omega)
  omega

/-- Numbers that are each a or a + 1: how many are which follows from their sum. -/
theorem count_of_two_values {g : Nat → Nat} {a : Nat} {l : List Nat} (h : ∀ j ∈ l, g j = a ∨ g j = a + 1) :
    (l.filter fun j => g j = a + 1).length + a * l.length = (l.map g).sum ∧
      (l.filter fun j => g j = a).length + (l.filter fun j => g j = a + 1).length = l.length := by
  induction l with
  | nil => simp
  | cons j l ih =>
    obtain ⟨sum, count⟩ := ih fun i mem => h i (List.mem_cons_of_mem j mem)
    rcases h j List.mem_cons_self with low | high
    · rw [List.filter_cons_of_neg (by simp [low]), List.filter_cons_of_pos (by simp [low])]
      simp only [List.length_cons, List.map_cons, List.sum_cons, low, Nat.mul_add, Nat.mul_one]
      omega
    · rw [List.filter_cons_of_pos (by simp [high]), List.filter_cons_of_neg (by simp [high])]
      simp only [List.length_cons, List.map_cons, List.sum_cons, high, Nat.mul_add, Nat.mul_one]
      omega

/-! ## The lines of a frame -/

theorem lineSets_eq_share (fm : Format) (k : Nat) : lineSets fm k = share (frameSets fm k) (carryingOf fm) := rfl

theorem carryingOf_pos : ∀ fm : Format, 0 < carryingOf fm := by decide

theorem linesOf_eq : ∀ fm : Format, linesOf fm = carryingOf fm + 2 := by decide

/-- A frame's sets fit its carrying lines at two a line (R1, R39). -/
theorem frameSets_le : ∀ fm : Format, ∀ k < cadenceLength fm, frameSets fm k ≤ 2 * carryingOf fm := by decide

theorem setsOnFrameLine_of_carrying {fm : Format} {j : Nat} (h : j < carryingOf fm) (k : Nat) :
    setsOnFrameLine fm k (j + 3) = lineSets fm k j := by
  have lines := linesOf_eq fm
  exact if_pos ⟨by omega, by omega⟩

theorem setsOnFrameLine_of_quiet {fm : Format} {line : Nat} (h : line ≤ 2 ∨ linesOf fm < line) (k : Nat) :
    setsOnFrameLine fm k line = 0 := if_neg (by omega)

theorem sum_lineSets (fm : Format) (k : Nat) : ((List.range (carryingOf fm)).map (lineSets fm k)).sum = frameSets fm k := by
  rw [lineSets_eq_share, sum_share, Nat.mul_div_cancel_left _ (carryingOf_pos fm)]

/-- Settles O16: the tables and cycles are evaluated; the shares of the lines come from their sum and from the two values they can have. -/
theorem formatArithmetic : Obligations.FormatArithmetic := by
  unfold Obligations.FormatArithmetic
  refine ⟨by decide, fun lines period fm => ?_, fun fm k phase => ?_, by decide, by decide, by decide, by decide, by decide⟩
  · rw [matchFormat_eq_some_iff, frameMatches_iff]
    simp only [Time] at *
    omega
  · dsimp only
    have pos := carryingOf_pos fm
    have few := frameSets_le fm k phase
    have sum := sum_lineSets fm k
    refine ⟨share_add _ _, sum, fun j inside => ⟨share_le pos few j, setsOnFrameLine_of_carrying inside k⟩, fun dense => ?_,
      fun sparse => ?_, setsOnFrameLine_of_quiet (.inl (by decide)) k, setsOnFrameLine_of_quiet (.inl (by decide)) k,
      fun line beyond => setsOnFrameLine_of_quiet (.inr beyond) k⟩
    · have low : ∀ j, 1 ≤ lineSets fm k j := le_share pos (by omega)
      have high : ∀ j, lineSets fm k j ≤ 2 := share_le pos few
      obtain ⟨twos, all⟩ := count_of_two_values (g := lineSets fm k) (a := 1) (l := List.range (carryingOf fm)) fun j _ => by
        have := low j
        have := high j
        omega
      rw [List.length_range, sum] at twos
      rw [List.length_range] at all
      simp only [Nat.reduceAdd] at twos all
      exact ⟨fun j _ => low j, by omega, by omega⟩
    · have high : ∀ j, lineSets fm k j ≤ 1 := share_le pos (by omega)
      obtain ⟨ones, all⟩ := count_of_two_values (g := lineSets fm k) (a := 0) (l := List.range (carryingOf fm)) fun j _ => by
        have := high j
        omega
      rw [List.length_range, sum] at ones
      rw [List.length_range] at all
      rw [Nat.zero_add] at ones all
      exact ⟨fun j _ => high j, by omega, by omega⟩

end Machine

end Sys2Proof
end

section
/-! PROOF. The quads of a feed at a boundary in LOCKED (R10, R46, R47): empty frames, absence, and the cadence tracker. -/

namespace Sys2Proof

namespace Machine

/-! ## Absence (R10) -/

section

variable (f : Feed) (q : Quad) (s : State)

theorem quadAbsent_quads (q' : Quad) : ((quadAbsent f q s).fr.get f).quads.get q' =
    if q = q' then { (s.fr.get f).quads.get q with state := .absent, basePending := true, tracker := Tracker.rebase }
    else (s.fr.get f).quads.get q' := by
  have fr : (quadAbsent f q s).fr.get f = { s.fr.get f with quads := (s.fr.get f).quads.modify q fun k =>
      { k with state := .absent, basePending := true, tracker := Tracker.rebase } } := Table.get_set_same _ _ _
  rw [fr]
  split
  case isTrue same => rw [← same, Table.get_modify_same]
  case isFalse other => rw [Table.get_modify_other _ _ _ _ other]

theorem quadAbsent_tracks (w : TrackNo) : (quadAbsent f q s).watch.tracks.get w =
    if trackRing w = feedRing f q then ⟨.unknown, 0, 0⟩ else s.watch.tracks.get w := Table.get_tab _ _

theorem quadAbsent_tpt (i : RecordNo) : (quadAbsent f q s).tpt.get i =
    if (s.tpt.get i).ring = feedRing f q ∧ (s.tpt.get i).state ≠ .free then { s.tpt.get i with state := .starved }
    else s.tpt.get i := Table.get_map _ _ _

end

theorem closeQuadFrame_of_counted {f : Feed} {q : Quad} {s : State}
    (h : ((s.fr.get f).quads.get q).carried = true ∨ ((s.fr.get f).quads.get q).empty = 0 ∨
      ((s.fr.get f).quads.get q).state = .absent) : closeQuadFrame f q s =
        s.setFr f { s.fr.get f with quads := (s.fr.get f).quads.set q ((s.fr.get f).quads.get q).counted } := by
  rw [closeQuadFrame_eq]
  refine if_neg fun ⟨empty, second, here⟩ => ?_
  rcases h with carried | none | absent
  · rw [carried] at empty
    cases empty
  · rw [QuadTrack.counted, empty, none] at second
    cases second
  · exact here absent

theorem closeQuadFrame_of_absent {f : Feed} {q : Quad} {s : State} (empty : ((s.fr.get f).quads.get q).carried = false)
    (second : 1 ≤ ((s.fr.get f).quads.get q).empty) (here : ((s.fr.get f).quads.get q).state ≠ .absent) :
    closeQuadFrame f q s = quadAbsent f q
      (s.setFr f { s.fr.get f with quads := (s.fr.get f).quads.set q ((s.fr.get f).quads.get q).counted }) := by
  have two : ((s.fr.get f).quads.get q).counted.empty = 2 := by
    rw [QuadTrack.counted, empty]
    exact Nat.min_eq_left (by omega)
  rw [closeQuadFrame_eq]
  exact if_pos ⟨empty, two, here⟩

/-- A quad's count moves in no other quad. -/
theorem closeQuadFrame_quad_other (f : Feed) {q q' : Quad} (h : q' ≠ q) (s : State) :
    ((closeQuadFrame f q s).fr.get f).quads.get q' = (s.fr.get f).quads.get q' := by
  have counted : ((s.setFr f { s.fr.get f with
      quads := (s.fr.get f).quads.set q ((s.fr.get f).quads.get q).counted }).fr.get f).quads.get q' =
      (s.fr.get f).quads.get q' := by
    rw [setFr_get, if_pos rfl]
    exact Table.get_set_other _ _ _ _ (Ne.symm h)
  rw [closeQuadFrame_eq]
  refine keeps_ite (P := fun t => (t.fr.get f).quads.get q' = (s.fr.get f).quads.get q') ?_ counted
  rw [quadAbsent_quads, if_neg (Ne.symm h), counted]

theorem closeQuadFrame_log (f : Feed) (q : Quad) (s : State) : (closeQuadFrame f q s).log = s.log :=
  (frame_closeQuadFrame s f q).log rfl

/-- Settles O20: a quad's count, and its absence where the count comes to 2. -/
theorem emptyFramesMakeQuadAbsent : Obligations.EmptyFramesMakeQuadAbsent := by
  unfold Obligations.EmptyFramesMakeQuadAbsent
  intro f q s
  dsimp only
  refine ⟨fun carried => ?_, fun empty => ?_, (frame_closeQuadFrame s f q).rings rfl, closeQuadFrame_log f q s,
    fun q' other => closeQuadFrame_quad_other f other s⟩
  · rw [closeQuadFrame_of_counted (.inl carried), QuadTrack.counted, carried]
    rfl
  · have counted : ((s.fr.get f).quads.get q).counted =
        { (s.fr.get f).quads.get q with empty := min 2 (((s.fr.get f).quads.get q).empty + 1), carried := false } := by
      rw [QuadTrack.counted, empty]
      rfl
    by_cases goes : 1 ≤ ((s.fr.get f).quads.get q).empty ∧ ((s.fr.get f).quads.get q).state ≠ .absent
    · obtain ⟨second, here⟩ := goes
      rw [closeQuadFrame_of_absent empty second here, quadAbsent_quads, if_pos rfl, setFr_get, if_pos rfl]
      dsimp only
      rw [Table.get_set_same, counted]
      refine ⟨rfl, rfl, fun _ => rfl, fun still => ?_, fun _ _ => ⟨rfl, rfl, quadAbsent_tracks f q _, quadAbsent_tpt f q _⟩⟩
      rcases still with none | absent
      · omega
      · exact absurd absent here
    · have stays : ((s.fr.get f).quads.get q).empty = 0 ∨ ((s.fr.get f).quads.get q).state = .absent := by
        by_cases absent : ((s.fr.get f).quads.get q).state = .absent
        · exact .inr absent
        · exact .inl (by by_contra some; exact goes ⟨Nat.one_le_iff_ne_zero.mpr some, absent⟩)
      rw [closeQuadFrame_of_counted (.inr stays), counted]
      simp only [State.setFr_fields, Table.get_set_same]
      refine ⟨trivial, trivial, fun second => ?_, fun _ => trivial, fun second here => absurd ⟨second, here⟩ goes⟩
      exact stays.resolve_left (by omega)

/-! ## The cadence tracker (R46, R47) -/

theorem Tracker.tallied_of_tracking {t : Tracker} (h : t.tracking = true) (p : SoundHead) : t.tallied p =
    { t with
      total := t.total + p.setCount.toNat
      framePhase := some (t.framePhase.getD p.phase.toNat)
      conflict := t.conflict || t.framePhase.any fun k => k != p.phase.toNat } := if_pos h

theorem Tracker.tallied_of_rebase {t : Tracker} (h : t.tracking = false) (p : SoundHead) : t.tallied p =
    if p.first then ⟨true, none, some p.phase.toNat, p.setCount.toNat, false⟩ else t := if_neg (by rw [h]; nofun)

theorem trackerClosed_of_rebase {t : Tracker} (h : t.tracking = false) (fm : Format) : trackerClosed fm t = t :=
  if_neg (by rw [h]; nofun)

theorem trackerClosed_of_none {t : Tracker} (h : t.tracking = true) (none : t.framePhase = none) (fm : Format) :
    trackerClosed fm t = Tracker.rebase := by
  rw [trackerClosed, if_pos h, none]

theorem trackerClosed_of_phase {t : Tracker} {k : Nat} (h : t.tracking = true) (phase : t.framePhase = some k) (fm : Format) :
    trackerClosed fm t =
      if cadenceMismatch fm t k then Tracker.rebase else ⟨true, some (nextPhase fm k), none, 0, false⟩ := by
  rw [trackerClosed, if_pos h, phase]

theorem trackerFaults_eq_false {t : Tracker} (h : t.tracking = false ∨ t.framePhase = none) (fm : Format) :
    trackerFaults fm t = false := by
  unfold trackerFaults
  rcases h with rebase | none
  · rw [rebase, Bool.false_and]
  · rw [none, Bool.and_false]

theorem trackerFaults_of_phase {t : Tracker} {k : Nat} (h : t.tracking = true) (phase : t.framePhase = some k) (fm : Format) :
    trackerFaults fm t = cadenceMismatch fm t k := by
  rw [trackerFaults, h, phase, Bool.true_and]

theorem cadenceMismatch_iff (fm : Format) (t : Tracker) (k : Nat) : cadenceMismatch fm t k = true ↔
    cadenceLength fm ≤ k ∨ t.total ≠ frameSets fm k ∨ (∃ e, t.expected = some e ∧ e ≠ k) ∨ t.conflict = true := by
  unfold cadenceMismatch
  rw [Bool.or_eq_true, Bool.or_eq_true, Bool.or_eq_true, decide_eq_true_eq, bne_iff_ne, or_assoc, or_assoc]
  cases t.expected <;> simp

theorem judgeCadence_tracker (f : Feed) (fm : Format) (q : Quad) (s : State) :
    (((judgeCadence f fm q s).fr.get f).quads.get q).tracker = trackerClosed fm ((s.fr.get f).quads.get q).tracker := by
  have changed : (((s.setFr f { s.fr.get f with quads := (s.fr.get f).quads.modify q fun k =>
      { k with tracker := trackerClosed fm ((s.fr.get f).quads.get q).tracker } }).fr.get f).quads.get q).tracker =
      trackerClosed fm ((s.fr.get f).quads.get q).tracker := by
    rw [setFr_get, if_pos rfl]
    dsimp only
    rw [Table.get_modify_same]
  refine keeps_ite (P := fun t => ((t.fr.get f).quads.get q).tracker = _) ?_ changed
  rw [(frame_report _ _ _).fr rfl]
  exact changed

theorem judgeCadence_log (f : Feed) (fm : Format) (q : Quad) (s : State) : (judgeCadence f fm q s).log =
    if trackerFaults fm ((s.fr.get f).quads.get q).tracker then (report .cadenceMismatch (.inputQuad f q) s).log
    else s.log := by
  unfold judgeCadence
  dsimp only
  split
  · exact report_log_congr _ _ rfl rfl rfl
  · rfl

/-- Settles O21: a case for the tracker's state and for its frame phase. -/
theorem cadenceTrackerFollowsPackets : Obligations.CadenceTrackerFollowsPackets := by
  unfold Obligations.CadenceTrackerFollowsPackets
  refine ⟨fun t p => ⟨fun rebase later => ?_, fun rebase first => ?_, fun tracking none => ?_, fun k tracking phase => ?_⟩,
    fun f fm q s => ?_⟩
  · rw [Tracker.tallied_of_rebase rebase, later]
    rfl
  · rw [Tracker.tallied_of_rebase rebase, first]
    rfl
  · rw [Tracker.tallied_of_tracking tracking, none, Option.any_none, Bool.or_false]
    rfl
  · have differs : (k != p.phase.toNat) = decide (p.phase.toNat ≠ k) := by
      rw [Bool.eq_iff_iff, bne_iff_ne, decide_eq_true_eq]
      exact ne_comm
    rw [Tracker.tallied_of_tracking tracking, phase, Option.any_some, differs]
    rfl
  · dsimp only
    rw [judgeCadence_tracker, judgeCadence_log]
    refine ⟨fun rebase => ?_, fun tracking none => ?_, fun k tracking phase => ?_⟩
    · rw [trackerClosed_of_rebase rebase, trackerFaults_eq_false (.inl rebase)]
      exact ⟨rfl, rfl⟩
    · rw [trackerClosed_of_none tracking none, trackerFaults_eq_false (.inr none)]
      exact ⟨rfl, rfl⟩
    · rw [trackerClosed_of_phase tracking phase, trackerFaults_of_phase tracking phase, ← cadenceMismatch_iff]
      refine ⟨fun mismatched => ?_, fun agrees => ?_⟩
      · rw [if_pos mismatched, if_pos mismatched]
        exact ⟨rfl, rfl⟩
      · rw [if_neg agrees, if_neg agrees]
        exact ⟨rfl, rfl⟩

end Machine

end Sys2Proof
end

section
/-! PROOF. O44: a stamp fires the cue whose label it has reached. -/

namespace Sys2Proof
namespace Machine

/-- A label's frames field counts as R − 1 when it is R or more (R109). -/
theorem stampIndex_eq {rate : Nat} (pos : 0 < rate) (k : Stamp) :
    stampIndex rate k = ((k.hours * 60 + k.minutes) * 60 + k.seconds) * rate +
      (if rate ≤ k.frames then rate - 1 else k.frames) := by
  unfold stampIndex
  split <;> omega

theorem stampIndex_lt {rate : Nat} (pos : 0 < rate) {k : Stamp} (hours : k.hours < 24) (minutes : k.minutes < 60)
    (seconds : k.seconds < 60) : stampIndex rate k < dayFrames rate := by
  have whole : (k.hours * 60 + k.minutes) * 60 + k.seconds + 1 ≤ 86400 := by omega
  calc stampIndex rate k < ((k.hours * 60 + k.minutes) * 60 + k.seconds) * rate + rate := by
        unfold stampIndex; omega
    _ = ((k.hours * 60 + k.minutes) * 60 + k.seconds + 1) * rate := by ring
    _ ≤ dayFrames rate := Nat.mul_le_mul_right rate whole

/-- The lateness is the difference of the indices around the day (R109). -/
theorem lateness_eq (rate : Nat) {stamp label : Stamp} (le : stampIndex rate label ≤ dayFrames rate) :
    (lateness rate stamp label : Int) = ((stampIndex rate stamp : Int) - stampIndex rate label) % (dayFrames rate : Int) := by
  have natural : ((stampIndex rate stamp + dayFrames rate - stampIndex rate label : Nat) : Int) =
      ((stampIndex rate stamp : Int) - stampIndex rate label) + dayFrames rate := by omega
  unfold lateness
  rw [Int.natCast_emod, natural, Int.add_emod_right]

theorem stampIndex_of_inRange {rate : Nat} {k : Stamp} (h : k.inRange rate = true) :
    stampIndex rate k = ((k.hours * 60 + k.minutes) * 60 + k.seconds) * rate + k.frames := by
  have frames : k.frames < rate := by
    simp only [Stamp.inRange, Bool.and_eq_true, decide_eq_true_eq] at h
    exact h.2
  unfold stampIndex
  omega

theorem requestCommit_of_idle {s : State} (h : s.ce.inFlight = none) (r : Requester) :
    requestCommit r s = validate r s := by
  unfold requestCommit
  rw [h]
  rfl

/-- A request other than a failsafe one joins the waiting order while a commit is in flight (R96). -/
theorem requestCommit_of_busy {s : State} (h : s.ce.inFlight.isSome = true) {r : Requester} (other : r ≠ .failsafe) :
    requestCommit r s = s.setCe { s.ce with waiting := s.ce.waiting ++ [r] } := by
  unfold requestCommit
  rw [if_neg (by rw [← Option.not_isSome, h]; decide), if_neg (fun e => other e.1)]

/-- A cue that fires while a commit is in flight becomes DUE and waits (R96, R111). -/
theorem fireCue_of_busy {s : State} (h : s.ce.inFlight.isSome = true) (c : CueNo) (late : Nat) :
    fireCue c late s = (s.setCue c { s.cues.get c with
      state := .due, fireLateness := late, framesWaited := 0, dueMark := true }).setCe
        { s.ce with waiting := s.ce.waiting ++ [.cue c] } := by
  unfold fireCue
  rw [if_neg (by rw [← Option.not_isSome, h]; decide)]
  exact requestCommit_of_busy (s := s.setCue c _) h nofun

/-- A cue that fires while no commit is in flight is validated at once (R96, R110). -/
theorem fireCue_of_idle {s : State} (h : s.ce.inFlight = none) (c : CueNo) (late : Nat) :
    fireCue c late s = validate (.cue c) (s.setCue c { s.cues.get c with
      state := .idle, fireLateness := late, framesWaited := 0, dueMark := false }) := by
  unfold fireCue
  rw [if_pos (by rw [h]; rfl)]
  exact requestCommit_of_idle (s := s.setCue c _) h (.cue c)

/-- An ARMED cue of the feed that the stamp finds less than R frames late fires, and no other (R110). -/
theorem evaluateCue_eq (f : Feed) {rate : Nat} (pos : 0 < rate) (stamp : Stamp) (c : CueNo) (s : State) :
    let q := s.cues.get c
    evaluateCue f rate stamp c s =
      if q.state = .armed ∧ q.feed = f ∧ lateness rate stamp q.label < rate
      then fireCue c (lateness rate stamp q.label) s else s := by
  dsimp only
  unfold evaluateCue
  simp only [Nat.le_sub_one_iff_lt pos]

/-- Settles O44: the lateness is the difference of the indices around the day, and by it the cue fires or stays. -/
theorem stampFiresCue : Obligations.StampFiresCue := by
  unfold Obligations.StampFiresCue
  intro f rate stamp c s pos range
  dsimp only
  intro hours minutes seconds
  refine ⟨?_, fun armed on late busy => ?_, fun armed on late idle => ?_, fun h => ?_⟩
  · have le := (stampIndex_lt pos hours minutes seconds).le
    have e := lateness_eq rate (stamp := stamp) le
    rw [stampIndex_of_inRange range, stampIndex_eq pos] at e
    simpa only [dayFrames, Nat.cast_mul, Nat.cast_ofNat] using e
  · rw [evaluateCue_eq f pos, if_pos ⟨armed, on, late⟩]
    exact fireCue_of_busy busy c _
  · rw [evaluateCue_eq f pos, if_pos ⟨armed, on, late⟩]
    exact fireCue_of_idle idle c _
  · rw [evaluateCue_eq f pos]
    refine if_neg fun ⟨armed, on, late⟩ => ?_
    rcases h with notArmed | off | later
    · exact notArmed armed
    · exact off on
    · omega

end Machine
end Sys2Proof
end

section
/-! PROOF. O40: the switch of one domain (R56, R102 to R104), destination by destination. -/

namespace Sys2Proof
namespace Machine

/-! ## One destination -/

/-- The table with one more reference for each of the pairs (R56). -/
def addAll (pairs : List (RingNo × Domain)) (t : Table 64 TakePoint) : Table 64 TakePoint :=
  pairs.foldl (fun t p => addReference p t) t

theorem addAll_get (pairs : List (RingNo × Domain)) (t : Table 64 TakePoint) (i : RecordNo) :
    (addAll pairs t).get i = { t.get i with references := (t.get i).references + (t.get i).named pairs } := by
  induction pairs generalizing t with
  | nil => simp [addAll, TakePoint.named]
  | cons p pairs ih =>
    have added : (addReference p t).get i =
        if (t.get i).holds p then { t.get i with references := (t.get i).references + 1 } else t.get i := Table.get_map _ _ _
    have step : addAll (p :: pairs) t = addAll pairs (addReference p t) := rfl
    rw [step, ih, added, named_cons]
    split
    · have same : ({ t.get i with references := (t.get i).references + 1 } : TakePoint).named pairs = (t.get i).named pairs := rfl
      rw [same, Nat.add_assoc, Nat.add_comm 1]
    · rw [Nat.add_zero]

theorem named_append (tp : TakePoint) (a b : List (RingNo × Domain)) : tp.named (a ++ b) = tp.named a + tp.named b := by
  unfold TakePoint.named
  split
  · rfl
  · exact List.count_append

theorem released_none (x : Dest) (r : Option Ramp) :
    released (fun _ => none) x r = r.elim [] fun r => entryPairs r.old (destDomain x) := rfl

section
variable (running : Bool) (p : Bank)

/-- The pairs whose references a destination gives up at the switch of its domain: those of the ramp that ends, and those of the old entry where no new ramp takes them over (R103, R104). -/
def droppedAt (s : State) (x : Dest) : List (RingNo × Domain) :=
  released (fun _ => none) x (s.ramps.get x) ++ if rampBegins running p s.active x then [] else destPairs s.active x

/-- The ramp that begins at the switch, if one does (R104). -/
def newRamp (a : Bank) (x : Dest) : Option Ramp :=
  if rampBegins running p a x then some ⟨a.entries.get x, rampLength (p.entries.get x).ramp, 0⟩ else none

theorem setRamp_setRamp (s : State) (x : Dest) (r r' : Option Ramp) : (s.setRamp x r).setRamp x r' = s.setRamp x r' := by
  unfold State.setRamp
  congr 1
  exact Table.ext_get fun y => by simp only [Table.get_set]; split <;> rfl

theorem switchDest_eq (x : Dest) (s : State) : switchDest running p x s =
    (s.setTpt (addAll (destPairs p x) (dropAll (droppedAt running p s x) s.tpt))).setRamp x (newRamp running p s.active x) := by
  unfold switchDest newRamp droppedAt
  dsimp only
  rw [endRamp_eq_moveRamp, moveRamp, Option.bind_fun_none, dropAll_append]
  by_cases begins : rampBegins running p s.active x = true
  · rw [if_pos begins, if_pos begins, if_pos begins, setRamp_setRamp]
    rfl
  · rw [if_neg begins, if_neg begins, if_neg begins]
    rfl

theorem switchDest_ramps (x y : Dest) (s : State) : (switchDest running p x s).ramps.get y =
    if x = y then newRamp running p s.active y else s.ramps.get y := by
  rw [switchDest_eq]
  simp only [State.setRamp_fields, State.setTpt_fields, Table.get_set]
  split
  · rename_i same
    rw [same]
  · rfl

theorem switchDest_get (x : Dest) (s : State) (i : RecordNo) : let tp := s.tpt.get i
    (switchDest running p x s).tpt.get i = { tp with
      references := tp.references - tp.named (droppedAt running p s x) + tp.named (destPairs p x) } := by
  dsimp only
  rw [switchDest_eq]
  simp only [State.setRamp_fields, State.setTpt_fields, addAll_get, dropAll_get]
  rfl

theorem droppedAt_switchDest {x y : Dest} (other : x ≠ y) (s : State) :
    droppedAt running p (switchDest running p x s) y = droppedAt running p s y := by
  unfold droppedAt
  rw [switchDest_ramps, if_neg other, switchDest_active]

/-! ## The destinations of a domain -/

theorem walk_switchDest_ramps {l : List Dest} (nodup : l.Nodup) (y : Dest) (s : State) :
    (walk l (switchDest running p) s).ramps.get y = if y ∈ l then newRamp running p s.active y else s.ramps.get y := by
  induction l generalizing s with
  | nil => simp [walk_nil]
  | cons x l ih =>
    obtain ⟨apart, nodup⟩ := List.nodup_cons.1 nodup
    rw [walk_cons, ih nodup, switchDest_active, switchDest_ramps]
    by_cases same : x = y
    · subst same
      simp [apart]
    · simp [same, Ne.symm same]

/-- The references of a record after the walk, where it has all those that are dropped. -/
theorem walk_switchDest_get {l : List Dest} (nodup : l.Nodup) (i : RecordNo) (s : State)
    (has : (s.tpt.get i).named (l.flatMap (droppedAt running p s)) ≤ (s.tpt.get i).references) :
    let tp := s.tpt.get i
    (walk l (switchDest running p) s).tpt.get i = { tp with
      references := tp.references - tp.named (l.flatMap (droppedAt running p s)) + tp.named (l.flatMap (destPairs p)) } := by
  dsimp only
  induction l generalizing s with
  | nil => simp [walk_nil, TakePoint.named]
  | cons x l ih =>
    obtain ⟨apart, nodup⟩ := List.nodup_cons.1 nodup
    have later : l.flatMap (droppedAt running p (switchDest running p x s)) = l.flatMap (droppedAt running p s) :=
      List.flatMap_congr fun y mem => droppedAt_switchDest running p (fun same : x = y => apart (same ▸ mem)) s
    have step := switchDest_get running p x s i
    dsimp only at step
    have named : ∀ pairs, ((switchDest running p x s).tpt.get i).named pairs = (s.tpt.get i).named pairs := fun pairs => by
      rw [step]
      rfl
    have count : ((switchDest running p x s).tpt.get i).references = (s.tpt.get i).references -
        (s.tpt.get i).named (droppedAt running p s x) + (s.tpt.get i).named (destPairs p x) := by rw [step]
    rw [List.flatMap_cons, named_append] at has
    rw [walk_cons, ih nodup _ (by rw [later, named, count]; omega), later, named, named, count, step, List.flatMap_cons,
      List.flatMap_cons, named_append, named_append]
    congr 1
    omega

end

/-- The pairs whose references domain d gives up at its switch (R103, R104). -/
def droppedIn (d : Domain) (running : Bool) (p : Bank) (s : State) : List (RingNo × Domain) :=
  (domainDests d).flatMap (droppedAt running p s)

/-- The pairs that domain d needs in a bank (R82). -/
def neededIn (d : Domain) (p : Bank) : List (RingNo × Domain) := (domainDests d).flatMap (destPairs p)

theorem droppedIn_domain {d : Domain} {running : Bool} {p : Bank} {s : State} {pr : RingNo × Domain}
    (h : pr ∈ droppedIn d running p s) : pr.2 = d := by
  obtain ⟨x, on, mem⟩ := List.mem_flatMap.1 h
  rw [mem_domainDests] at on
  rcases List.mem_append.1 mem with mem | mem
  · exact releasedIn_domain (next := fun _ => none) (s := s) (List.mem_flatMap.2 ⟨x, (mem_domainDests d x).2 on, mem⟩)
  · split at mem
    · cases mem
    · rw [destPairs_domain mem, on]

theorem neededIn_domain {d : Domain} {p : Bank} {pr : RingNo × Domain} (h : pr ∈ neededIn d p) : pr.2 = d := by
  obtain ⟨x, on, mem⟩ := List.mem_flatMap.1 h
  rw [destPairs_domain mem, (mem_domainDests d x).1 on]

/-! ## The switch -/

section
variable (d : Domain) (running : Bool) (p : Bank) (s : State)

theorem switchTo_ramps (x : Dest) : (switchTo d running p s).ramps.get x =
    if destDomain x = d then newRamp running p s.active x else s.ramps.get x := by
  have e : (switchTo d running p s).ramps = (walk (domainDests d) (switchDest running p) s).ramps := by
    unfold switchTo
    dsimp only
    cases domainFeed? d <;> rfl
  rw [e, walk_switchDest_ramps _ _ (domainDests_nodup d)]
  simp only [mem_domainDests]

theorem switchTo_fmt : (switchTo d running p s).fmt = match domainFeed? d with
    | some f => s.fmt.set f (restartBuilt f p s.active (s.fmt.get f))
    | none => s.fmt := by
  have e : (walk ((List.finRange 16).map (domainDest d)) (switchDest running p) s).fmt = s.fmt :=
    (Frame.walk (fun x s => frame_switchDest s running p x) _ s).fmt rfl
  unfold switchTo
  dsimp only
  cases domainFeed? d with
  | none => exact e
  | some f =>
    simp only [State.setFmt_fields]
    rw [e]

/-- A record after the switch, where it has all the references that are dropped. -/
theorem switchTo_get {i : RecordNo} (has : (s.tpt.get i).named (droppedIn d running p s) ≤ (s.tpt.get i).references) :
    let tp := s.tpt.get i
    let moved : TakePoint := { tp with
      references := tp.references - tp.named (droppedIn d running p s) + tp.named (neededIn d p) }
    (switchTo d running p s).tpt.get i = if tp.domain = d then moved.freedIfUnused else moved := by
  have walked := walk_switchDest_get running p (domainDests_nodup d) i s has
  dsimp only at walked ⊢
  rw [switchTo_tpt, freeUnused_get]
  change (if ((walk (domainDests d) (switchDest running p) s).tpt.get i).domain = d then _ else _) = _
  rw [show (walk ((List.finRange 16).map (domainDest d)) (switchDest running p) s) =
    walk (domainDests d) (switchDest running p) s from rfl, walked]
  rfl

theorem switchTo_get_other {i : RecordNo} (off : (s.tpt.get i).domain ≠ d) :
    (switchTo d running p s).tpt.get i = s.tpt.get i := by
  have dropped := named_of_other off fun pr mem => droppedIn_domain (running := running) (p := p) (s := s) mem
  have needed := named_of_other off fun pr mem => neededIn_domain (p := p) mem
  have e := switchTo_get d running p s (i := i) (by rw [dropped]; exact Nat.zero_le _)
  dsimp only at e
  rw [e, if_neg off, dropped, needed]
  rfl

end

/-! ## Domains in a commit in flight (R102, R106) -/

section
variable {d : Domain} {running : Bool} {c : InFlight} {s : State}

theorem switchAt_of_idle (h : s.ce.inFlight = none) : switchAt d running s = s := by
  unfold switchAt switchDomain
  rw [h]
  unfold completeIfSwitched
  rw [h]

theorem switchDomain_of_not (flight : s.ce.inFlight = some c) (not : c.switched.get d = false) :
    switchDomain d running s = (switchTo d running c.snapshot s).setCe
      { s.ce with inFlight := some { c with switched := c.switched.set d true } } := by
  unfold switchDomain
  rw [flight]
  dsimp only
  rw [not, (frame_switchTo s d running c.snapshot).ce rfl]
  rfl

theorem switchDomain_of_switched (flight : s.ce.inFlight = some c) (already : c.switched.get d = true) :
    switchDomain d running s = s := by
  unfold switchDomain
  rw [flight]
  exact if_pos already

theorem completeIfSwitched_of_all (flight : s.ce.inFlight = some c) (all : ∀ e, c.switched.get e = true) :
    completeIfSwitched s = completeCommit c s := by
  unfold completeIfSwitched
  rw [flight]
  exact if_pos ((Table.all_cells_iff _ _).2 all)

theorem completeIfSwitched_of_left (flight : s.ce.inFlight = some c) {e : Domain} (left : c.switched.get e = false) :
    completeIfSwitched s = s := by
  unfold completeIfSwitched
  rw [flight]
  refine if_neg fun all => ?_
  have switched := (Table.all_cells_iff _ _).1 all e
  rw [left] at switched
  cases switched

theorem switchAt_of_left (flight : s.ce.inFlight = some c) (not : c.switched.get d = false)
    {e : Domain} (other : e ≠ d) (left : c.switched.get e = false) :
    switchAt d running s = (switchTo d running c.snapshot s).setCe
      { s.ce with inFlight := some { c with switched := c.switched.set d true } } := by
  unfold switchAt
  rw [switchDomain_of_not flight not]
  refine completeIfSwitched_of_left (c := { c with switched := c.switched.set d true }) rfl (e := e) ?_
  rw [Table.get_set_other _ _ _ _ (Ne.symm other), left]

theorem switchAt_of_last (flight : s.ce.inFlight = some c) (not : c.switched.get d = false)
    (others : ∀ e, e ≠ d → c.switched.get e = true) :
    switchAt d running s = completeCommit { c with switched := c.switched.set d true }
      ((switchTo d running c.snapshot s).setCe
        { s.ce with inFlight := some { c with switched := c.switched.set d true } }) := by
  unfold switchAt
  rw [switchDomain_of_not flight not]
  refine completeIfSwitched_of_all rfl fun e => ?_
  rw [Table.get_set]
  split
  · rfl
  · rename_i other
    exact others e (Ne.symm other)

theorem switchAt_of_switched (flight : s.ce.inFlight = some c) (already : c.switched.get d = true)
    {e : Domain} (left : c.switched.get e = false) : switchAt d running s = s := by
  unfold switchAt
  rw [switchDomain_of_switched flight already, completeIfSwitched_of_left flight left]

theorem switchIfStopped_of_running {f : Feed} (h : domainRunning s (feedDomain f) = true) : switchIfStopped f s = s :=
  if_pos h

theorem switchIfStopped_of_stopped {f : Feed} (h : domainRunning s (feedDomain f) = false)
    (flight : s.ce.inFlight = some c) (not : c.switched.get (feedDomain f) = false) :
    switchIfStopped f s = (switchTo (feedDomain f) false c.snapshot s).setCe
      { s.ce with inFlight := some { c with switched := c.switched.set (feedDomain f) true } } := by
  unfold switchIfStopped
  rw [h]
  exact switchDomain_of_not flight not

end

theorem rampBegins_iff (running : Bool) (p a : Bank) (x : Dest) : rampBegins running p a x = true ↔ running = true ∧
    carriedIn a x = true ∧ carriedIn p x = true ∧ p.entries.get x ≠ a.entries.get x ∧ (p.entries.get x).ramp ≠ .none := by
  unfold rampBegins
  simp only [Bool.and_eq_true, bne_iff_ne, and_assoc]

/-! ## The stop of a feed domain -/

/-- What the stop of a feed domain does before the switch it may bring (R15, R40, R128, R131, R143). -/
def halted (f : Feed) (s : State) : State :=
  stopRound (feedDomain f) (clearClips (feedDomain f)
    (endRamps (feedDomain f) (s.setFmt f { s.fmt.get f with phase := 0, sets := [] })))

theorem stopDomain_eq (f : Feed) (s : State) :
    stopDomain f s = pathCheckStop f (switchAt (feedDomain f) false (halted f s)) := rfl

theorem halted_rounds (f : Feed) (d : Domain) (s : State) : (halted f s).cm.rounds.get d =
    if d = feedDomain f then { s.cm.rounds.get d with checked := none, mismatch := false } else s.cm.rounds.get d := by
  have cm : (clearClips (feedDomain f) (endRamps (feedDomain f)
      (s.setFmt f { s.fmt.get f with phase := 0, sets := [] }))).cm = s.cm :=
    ((frame_clearClips _ _).cm rfl).trans ((frame_endRamps _ _).cm rfl)
  unfold halted stopRound
  simp only [State.setRound_fields, Table.get_set, cm]
  by_cases same : feedDomain f = d
  · rw [if_pos same, if_pos same.symm, same]
  · rw [if_neg same, if_neg (Ne.symm same)]

theorem halted_clips (f : Feed) (x : Dest) (s : State) : (halted f s).clips.get x =
    if destDomain x = feedDomain f then false else s.clips.get x := by
  unfold halted
  rw [(frame_stopRound _ _).clips rfl, clearClips_get, (frame_endRamps _ _).clips rfl]
  rfl

theorem halted_ramps (f : Feed) (x : Dest) (s : State) : (halted f s).ramps.get x =
    if destDomain x = feedDomain f then none else s.ramps.get x := by
  unfold halted
  rw [(frame_stopRound _ _).ramps rfl, (frame_clearClips _ _).ramps rfl, endRamps_ramps]
  rfl

theorem halted_tpt (f : Feed) (s : State) : (halted f s).tpt =
    freeUnused (feedDomain f) (dropAll (releasedIn (fun _ => none) (feedDomain f) s) s.tpt) := by
  unfold halted
  rw [(frame_stopRound _ _).tpt rfl, (frame_clearClips _ _).tpt rfl, endRamps_tpt]
  rfl

theorem frame_halted (f : Feed) (s : State) :
    Frame { tpt := true, ramps := true, fmt := true, clips := true, cm := true } s (halted f s) := by
  unfold halted
  exact (((frame_setFmt s _ _).mono.trans (frame_endRamps _ _).mono).trans (frame_clearClips _ _).mono).trans
    (frame_stopRound _ _).mono

theorem halted_fmt (f : Feed) (s : State) : (halted f s).fmt = s.fmt.set f { s.fmt.get f with phase := 0, sets := [] } := by
  unfold halted
  rw [(frame_stopRound _ _).fmt rfl, (frame_clearClips _ _).fmt rfl, (frame_endRamps _ _).fmt rfl]
  rfl

/-- The pairs of the ramps of a domain that end all at once, destination by destination. -/
theorem ended_perm (d : Domain) (s : State) :
    (((List.finRange 144).filter fun x => destDomain x = d).flatMap fun x =>
      (s.ramps.get x).elim [] fun r => entryPairs r.old d).Perm (releasedIn (fun _ => none) d s) := by
  refine ((filter_destDomain d).flatMap_right _).trans (List.Perm.of_eq (List.flatMap_congr fun x on => ?_))
  rw [mem_domainDests] at on
  rw [released_none, on]

/-- A record of the domain after its references have been dropped and the unused are freed. -/
theorem freeUnused_dropAll_get (d : Domain) (pairs : List (RingNo × Domain)) (on : ∀ pr ∈ pairs, pr.2 = d)
    (t : Table 64 TakePoint) (i : RecordNo) : let tp := t.get i
    let left := tp.references - pairs.count (tp.ring, d)
    (freeUnused d (dropAll pairs t)).get i = if tp.domain = d ∧ tp.state ≠ .free then
      { tp with references := left, state := if left = 0 ∧ tp.reserved = false then .free else tp.state } else tp := by
  dsimp only
  rw [freeUnused_get, dropAll_get]
  by_cases own : (t.get i).domain = d
  · rw [if_pos own]
    by_cases free : (t.get i).state = .free
    · rw [if_neg fun h => h.2 free, TakePoint.named, if_pos free]
      exact TakePoint.freedIfUnused_of_free free
    · rw [if_pos ⟨own, free⟩, TakePoint.freedIfUnused_rest, TakePoint.freedIfUnused_state, TakePoint.named, if_neg free, own]
  · rw [if_neg own, if_neg fun h => own h.1, named_of_other own on]
    rfl

theorem halted_get (f : Feed) (s : State) (i : RecordNo) : let tp := s.tpt.get i
    let held := ((List.finRange 144).filter fun x => destDomain x = feedDomain f).flatMap fun x =>
      (s.ramps.get x).elim [] fun r => entryPairs r.old (feedDomain f)
    let left := tp.references - held.count (tp.ring, feedDomain f)
    (halted f s).tpt.get i = if tp.domain = feedDomain f ∧ tp.state ≠ .free then
      { tp with references := left, state := if left = 0 ∧ tp.reserved = false then .free else tp.state } else tp := by
  dsimp only
  rw [halted_tpt, freeUnused_dropAll_get _ _ (fun pr mem => releasedIn_domain mem), (ended_perm _ s).count_eq]

/-! ## The references of a record at the switch -/

theorem droppedIn_count (d : Domain) (running : Bool) (p : Bank) (s : State) (held : RingNo × Domain) :
    let dests := (List.finRange 144).filter fun x => destDomain x = d
    (droppedIn d running p s).count held =
      (dests.flatMap fun x => (s.ramps.get x).elim [] fun r => entryPairs r.old d).count held +
        ((dests.filter fun x => !rampBegins running p s.active x).flatMap (destPairs s.active)).count held := by
  dsimp only
  have kept := (((filter_destDomain d).filter fun x => !rampBegins running p s.active x).flatMap_right
    (destPairs s.active)).count_eq held
  rw [(ended_perm d s).count_eq, kept]
  unfold droppedIn releasedIn droppedAt
  induction domainDests d with
  | nil => rfl
  | cons x l ih =>
    rw [List.flatMap_cons, List.flatMap_cons, List.count_append, List.count_append, List.count_append, ih, List.filter_cons]
    by_cases begins : rampBegins running p s.active x = true
    · rw [if_pos begins, if_neg (by rw [begins]; decide), List.count_nil]
      omega
    · rw [if_neg begins, if_pos (by rw [Bool.not_eq_true] at begins; rw [begins]; rfl), List.flatMap_cons, List.count_append]
      omega

theorem neededIn_count (d : Domain) (p : Bank) (held : RingNo × Domain) : (neededIn d p).count held =
    (((List.finRange 144).filter fun x => destDomain x = d).flatMap (destPairs p)).count held :=
  (((filter_destDomain d).flatMap_right (destPairs p)).count_eq held).symm

/-- Settles O40: the switch is described by its ramps, its bank, its Formatter and its records, each by a lemma above. -/
theorem switchIsOneDomain : Obligations.SwitchIsOneDomain := by
  unfold Obligations.SwitchIsOneDomain
  refine ⟨fun d running s => ?once, ?again, ?validation, fun f s => ?stop, ?record, rampBegins_iff, ?fmt, fun d running p s => ?domain⟩
  case once =>
    refine ⟨switchAt_of_idle, fun c flight not => ⟨?_, switchAt_of_last flight not⟩⟩
    rintro ⟨e, other, left⟩
    exact switchAt_of_left flight not other left
  case again =>
    rintro d running c s flight already ⟨e, left⟩
    exact switchAt_of_switched flight already left
  case validation =>
    exact fun f s => ⟨switchIfStopped_of_running, fun c stopped flight not => switchIfStopped_of_stopped stopped flight not⟩
  case stop =>
    have k := frame_halted f s
    exact ⟨halted f s, stopDomain_eq f s, k.ce rfl, k.active rfl, k.pc rfl, k.mgmt rfl, k.log rfl, k.fr rfl, k.rings rfl,
      k.watch rfl, k.cues rfl, halted_fmt f s, fun x => halted_ramps f x s, fun x => halted_clips f x s,
      fun d => halted_rounds f d s, halted_get f s⟩
  case record =>
    intro d running p s i
    dsimp only
    rintro rfl used has
    have named : ∀ pairs, (s.tpt.get i).named pairs = pairs.count ((s.tpt.get i).ring, (s.tpt.get i).domain) :=
      fun pairs => if_neg used
    rw [← droppedIn_count _ running p s] at has ⊢
    have e := switchTo_get (s.tpt.get i).domain running p s (i := i) (by rw [named]; exact has)
    dsimp only at e
    rw [e, if_pos rfl, TakePoint.freedIfUnused_rest, TakePoint.freedIfUnused_state, named, named, neededIn_count]
  case fmt =>
    intro d running p s f q
    dsimp only
    rw [switchTo_fmt]
    refine ⟨fun off => ?_, ?_⟩
    · cases on : domainFeed? d with
      | none => rfl
      | some g =>
        refine Table.get_set_other _ _ _ _ fun same => off ?_
        subst same
        unfold domainFeed? at on
        split at on
        · obtain rfl := Option.some.inj on
          rfl
        · cases on
    · rintro rfl
      rw [domainFeed?_feedDomain]
      dsimp only
      rw [Table.get_set_same, restartBuilt, Table.get_tab]
      simp only [Bool.and_eq_true, Bool.not_eq_true']
  case domain =>
    refine ⟨fun x => Table.get_tab _ _, fun q => Table.get_tab _ _, fun x off => ?_, fun x on => ?_,
      fun i off => switchTo_get_other d running p s off⟩
    · rw [switchTo_ramps, if_neg off]
    · rw [switchTo_ramps, if_pos on, newRamp]
      simp only [rampBegins_iff]

end Machine
end Sys2Proof
end

section
/-! PROOF. O42: the validation of a request (R95 to R101, R112, R113): refused by a guard, refused by a full table, or put in flight. -/

namespace Sys2Proof
namespace Machine

/-! ## Guards (R97, R98) -/

theorem guardedDestDiffs_ne_nil (g : Table 4 Guard) (a b : Bank) :
    guardedDestDiffs g a b ≠ [] ↔ ∃ x, destGuarded g x = true ∧ a.entries.get x ≠ b.entries.get x := by
  unfold guardedDestDiffs
  rw [Ne, List.filter_eq_nil_iff]
  simp

theorem guardedQuadDiffs_ne_nil (g : Table 4 Guard) (a b : Bank) :
    guardedQuadDiffs g a b ≠ [] ↔ ∃ q, quadGuarded g q = true ∧ a.modes.get q ≠ b.modes.get q := by
  unfold guardedQuadDiffs
  rw [Ne, List.filter_eq_nil_iff]
  simp

/-- The snapshot would change a guarded item (R98). -/
def ChangesGuarded (p : Bank) (s : State) : Prop :=
  (∃ x, destGuarded s.guards x = true ∧ p.entries.get x ≠ s.active.entries.get x) ∨
    ∃ q, quadGuarded s.guards q = true ∧ p.modes.get q ≠ s.active.modes.get q

theorem guardFails_iff (r : Requester) (p : Bank) (s : State) :
    guardFails r p s = true ↔ r ≠ .failsafe ∧ ChangesGuarded p s := by
  have lists : (!(guardedDestDiffs s.guards p s.active).isEmpty || !(guardedQuadDiffs s.guards p s.active).isEmpty) = true ↔
      ChangesGuarded p s := by
    rw [ChangesGuarded, ← guardedDestDiffs_ne_nil, ← guardedQuadDiffs_ne_nil]
    simp
  cases r with
  | command b => exact lists.trans ⟨fun h => ⟨nofun, h⟩, And.right⟩
  | cue c => exact lists.trans ⟨fun h => ⟨nofun, h⟩, And.right⟩
  | failsafe => exact ⟨nofun, fun h => absurd rfl h.1⟩

/-! ## The three ends of a validation -/

theorem validate_of_guarded {r : Requester} {s : State} (h : guardFails r (snapshotFor r s) s = true) :
    validate r s = refuseCommit r .refusedGuarded .refusedGuarded .refusedGuarded
      [firstOr255 (guardedDestDiffs s.guards (snapshotFor r s) s.active),
        firstOr255 (guardedQuadDiffs s.guards (snapshotFor r s) s.active)] s := if_pos h

theorem validate_of_full {r : Requester} {s : State} (h : guardFails r (snapshotFor r s) s = false)
    (full : 64 < (unionPairs (snapshotFor r s) s).length) :
    validate r s = refuseCommit r .refusedTableFull .refusedTableFull .refusedTableFull
      [numWord (unionPairs (snapshotFor r s) s).length, numWord (heldPairs s.tpt).length] s := by
  unfold validate
  dsimp only
  rw [h, if_neg Bool.false_ne_true, if_pos (by exact full)]

theorem validate_of_accepted {r : Requester} {s : State} (h : guardFails r (snapshotFor r s) s = false)
    (room : (unionPairs (snapshotFor r s) s).length ≤ 64) :
    validate r s = acceptCommit r (snapshotFor r s) s := by
  unfold validate
  dsimp only
  rw [h, if_neg Bool.false_ne_true, if_neg (by exact not_lt.2 room)]

/-! ## Refusals (R112, R113) -/

section
variable (r : Requester) (result : CommitResult) (v : Verdict) (o : CueOutcome) (words : List Word) (s : State)

theorem refuseCommit_ce : (refuseCommit r result v o words s).ce = { s.ce with lastSource := some r, lastResult := result } := by
  cases r with
  | command b => rfl
  | cue c => exact (frame_report _ _ _).ce rfl
  | failsafe => exact (frame_report _ _ _).ce rfl

/-- What a refusal tells: a cue's outcome and CUE REFUSED, FAILSAFE REFUSED, or nothing but the command's answer. -/
theorem refuseCommit_told : match r with
    | .command _ => (refuseCommit r result v o words s).log = s.log ∧ (refuseCommit r result v o words s).cues = s.cues
    | .cue c => (refuseCommit r result v o words s).log = (report .cueRefused (.cue c) s).log ∧
        (refuseCommit r result v o words s).cues = s.cues.set c { s.cues.get c with outcome := o }
    | .failsafe => (refuseCommit r result v o words s).log =
          (report .failsafeRefused (.management s.mgmt.controlFeed) s).log ∧
        (refuseCommit r result v o words s).cues = s.cues := by
  cases r with
  | command b => exact ⟨rfl, rfl⟩
  | cue c => exact ⟨report_log_congr _ _ rfl rfl rfl, (frame_report _ _ _).cues rfl⟩
  | failsafe => exact ⟨report_log_congr _ _ rfl rfl rfl, (frame_report _ _ _).cues rfl⟩

end

/-! ## Acceptance (R99 to R101) -/

theorem length_dedup_append {α : Type} [DecidableEq α] (a b : List α) :
    (a ++ b).dedup.length = a.dedup.length + (b.dedup.filter fun x => x ∉ a).length := by
  have left : (b.dedup.filter fun x => x ∉ a).length = (b.toFinset \ a.toFinset).card := by
    rw [← List.toFinset_card_of_nodup ((List.nodup_dedup b).filter _)]
    congr 1
    ext x
    simp
  rw [left, ← List.card_toFinset, ← List.card_toFinset, List.toFinset_append, Finset.union_comm, Nat.add_comm]
  exact (Finset.card_sdiff_add_card _ _).symm

/-- The records allocated number the needed pairs that no record held (R100). -/
theorem newInFlight_allocated (r : Requester) (p : Bank) (s : State) :
    (newInFlight r p s).allocated = ((bankPairs p).dedup.filter fun pr => pr ∉ heldPairs s.tpt).length := by
  have count : (newInFlight r p s).allocated = (heldPairs s.tpt ++ bankPairs p).dedup.length - (heldPairs s.tpt).dedup.length := rfl
  rw [count, length_dedup_append, Nat.add_sub_cancel_left]
  exact congrArg List.length (List.filter_congr fun _ _ => decide_eq_decide.2 Iff.rfl)

/-- The cue's values that a request holds; a request that is no cue's holds those of a cue at start-up (R95). -/
def heldCue (r : Requester) (s : State) : Cue :=
  match r with
  | .cue c => s.cues.get c
  | .command _ | .failsafe => Cue.start

theorem newInFlight_eq (r : Requester) (p : Bank) (s : State) : newInFlight r p s =
    ⟨p, r, (heldCue r s).fireLateness, (heldCue r s).framesWaited, (heldCue r s).dueMark, Table.fill 9 false,
      ((bankPairs p).dedup.filter fun pr => pr ∉ heldPairs s.tpt).length⟩ := by
  have allocated := newInFlight_allocated r p s
  cases r <;> exact congrArg (InFlight.mk p _ _ _ _ (Table.fill 9 false)) allocated

theorem domainRunning_congr {s t : State} (h : t.fr = s.fr) (d : Domain) : domainRunning t d = domainRunning s d := by
  unfold domainRunning
  rw [h]

theorem exists_feedDomain {s : State} {d : Domain} (h : domainRunning s d = false) : ∃ f, feedDomain f = d := by
  by_cases feed : d.val < 8
  · exact ⟨⟨d.val, feed⟩, rfl⟩
  · rw [domainRunning, domainFeed?, dif_neg feed] at h
    cases h

/-- The snapshot is in force in the domains named, and the commit in flight has switched these; the rest is as in s. -/
structure SwitchedOn (on : Domain → Bool) (c : InFlight) (s t : State) : Prop where
  fr : t.fr = s.fr
  ce : t.ce = { s.ce with inFlight := some { c with switched := Table.tab 9 on } }
  entries : ∀ x, t.active.entries.get x = if on (destDomain x) then c.snapshot.entries.get x else s.active.entries.get x
  modes : ∀ q, t.active.modes.get q = if on (quadDomain q) then c.snapshot.modes.get q else s.active.modes.get q
  records : ∀ i, on (s.tpt.get i).domain = false → t.tpt.get i = s.tpt.get i

theorem fill_eq_tab (b : Bool) : Table.fill 9 b = Table.tab 9 fun _ => b :=
  Table.ext_get fun d => by rw [Table.get_fill, Table.get_tab]

theorem tab_set_true (on : Domain → Bool) (d : Domain) :
    (Table.tab 9 on).set d true = Table.tab 9 fun e => on e || decide (e = d) := by
  refine Table.ext_get fun e => ?_
  rw [Table.get_set, Table.get_tab, Table.get_tab]
  by_cases same : d = e
  · rw [if_pos same, decide_eq_true same.symm, Bool.or_true]
  · rw [if_neg same, decide_eq_false (Ne.symm same), Bool.or_false]

/-- One more domain switches. -/
theorem SwitchedOn.switch {on : Domain → Bool} {c : InFlight} {s t : State} (h : SwitchedOn on c s t) (d : Domain) :
    SwitchedOn (fun e => on e || decide (e = d)) c s ((switchTo d false c.snapshot t).setCe
      { t.ce with inFlight := some { c with switched := (Table.tab 9 on).set d true } }) where
  fr := ((frame_switchTo t d false c.snapshot).fr rfl).trans h.fr
  ce := by
    rw [tab_set_true, h.ce]
    rfl
  entries x := by
    have own : ((switchTo d false c.snapshot t).active.entries.get x) =
      if destDomain x = d then c.snapshot.entries.get x else t.active.entries.get x := Table.get_tab _ _
    refine own.trans ?_
    rw [h.entries]
    by_cases same : destDomain x = d <;> simp [same]
  modes q := by
    have own : ((switchTo d false c.snapshot t).active.modes.get q) =
      if quadDomain q = d then c.snapshot.modes.get q else t.active.modes.get q := Table.get_tab _ _
    refine own.trans ?_
    rw [h.modes]
    by_cases same : quadDomain q = d <;> simp [same]
  records i off := by
    obtain ⟨still, other⟩ := Bool.or_eq_false_iff.1 off
    have kept := h.records i still
    have away : (t.tpt.get i).domain ≠ d := by
      rw [kept]
      exact of_decide_eq_false other
    exact (switchTo_get_other d false c.snapshot t away).trans kept

/-- The switch of a feed's domain at a validation, where it does not run. -/
theorem SwitchedOn.ifStopped {on : Domain → Bool} {c : InFlight} {s t : State} (h : SwitchedOn on c s t) {f : Feed}
    (new : on (feedDomain f) = false) :
    SwitchedOn (fun e => on e || (!domainRunning s e && decide (e = feedDomain f))) c s (switchIfStopped f t) := by
  cases running : domainRunning s (feedDomain f) with
  | true =>
    rw [switchIfStopped_of_running (by rw [domainRunning_congr h.fr]; exact running)]
    have same : (fun e => on e || (!domainRunning s e && decide (e = feedDomain f))) = on := funext fun e => by
      by_cases own : e = feedDomain f
      · rw [own, running]
        simp
      · simp [own]
    rwa [same]
  | false =>
    have flight : t.ce.inFlight = some { c with switched := Table.tab 9 on } := by rw [h.ce]
    rw [switchIfStopped_of_stopped (by rw [domainRunning_congr h.fr]; exact running) flight (by rw [Table.get_tab]; exact new)]
    have same : (fun e => on e || (!domainRunning s e && decide (e = feedDomain f))) =
        fun e => on e || decide (e = feedDomain f) := funext fun e => by
      by_cases own : e = feedDomain f
      · rw [own, running]
        simp
      · simp [own]
    rw [same]
    exact h.switch (feedDomain f)

theorem feedDomain_injective : Function.Injective feedDomain := fun f g h => by
  have := congrArg Fin.val h
  exact Fin.ext this

theorem SwitchedOn.walk {on : Domain → Bool} {c : InFlight} {s t : State} (h : SwitchedOn on c s t) {l : List Feed}
    (nodup : l.Nodup) (new : ∀ f ∈ l, on (feedDomain f) = false) :
    SwitchedOn (fun e => on e || (!domainRunning s e && decide (e ∈ l.map feedDomain))) c s (walk l switchIfStopped t) := by
  induction l generalizing on t with
  | nil =>
    simp only [List.map_nil, List.not_mem_nil, decide_false, Bool.and_false, Bool.or_false, walk_nil]
    exact h
  | cons f l ih =>
    obtain ⟨apart, nodup⟩ := List.nodup_cons.1 nodup
    have rest := ih (h.ifStopped (new f List.mem_cons_self)) nodup fun g mem => by
      have other : feedDomain g ≠ feedDomain f := fun same => apart (feedDomain_injective same ▸ mem)
      rw [new g (List.mem_cons_of_mem f mem), decide_eq_false other]
      simp
    have same : (fun e => on e || (!domainRunning s e && decide (e ∈ (f :: l).map feedDomain))) = fun e =>
        (on e || (!domainRunning s e && decide (e = feedDomain f))) ||
          (!domainRunning s e && decide (e ∈ l.map feedDomain)) := funext fun e => by
      simp only [List.map_cons, List.mem_cons, Bool.decide_or, Bool.and_or_distrib_left, Bool.or_assoc]
    rw [same, walk_cons]
    exact rest

/-- An accepted validation puts the snapshot in force in every domain that does not run (R101). -/
theorem acceptCommit_switchedOn (r : Requester) (p : Bank) (s : State) :
    SwitchedOn (fun d => !domainRunning s d) (newInFlight r p s) (s.setTpt (reserveFor p s.tpt)) (acceptCommit r p s) := by
  have start : SwitchedOn (fun _ => false) (newInFlight r p s) (s.setTpt (reserveFor p s.tpt))
      ((s.setTpt (reserveFor p s.tpt)).setCe { s.ce with inFlight := some (newInFlight r p s) }) :=
    ⟨rfl, by rw [← fill_eq_tab]; rfl, fun _ => rfl, fun _ => rfl, fun _ _ => rfl⟩
  have walked := start.walk (List.nodup_finRange 8) fun _ _ => rfl
  have same : (fun d => !domainRunning s d) = fun e => false || (!domainRunning (s.setTpt (reserveFor p s.tpt)) e &&
      decide (e ∈ (List.finRange 8).map feedDomain)) := funext fun d => by
    rw [domainRunning_congr (s := s) (t := s.setTpt (reserveFor p s.tpt)) rfl, Bool.false_or]
    cases running : domainRunning s d with
    | true => rfl
    | false =>
      obtain ⟨f, rfl⟩ := exists_feedDomain running
      rw [decide_eq_true (List.mem_map_of_mem (List.mem_finRange f))]
      rfl
  rw [same]
  exact walked

theorem frame_acceptCommit_beside (r : Requester) (p : Bank) (s : State) :
    Frame { tpt := true, ce := true, ramps := true, fmt := true, active := true } s (acceptCommit r p s) :=
  (frame_acceptCommit s r p).mono

/-- Settles O42: a validation is refused by a guard, refused by a full table, or accepted; the accepted one is SwitchedOn. -/
theorem validationRefusesOrAccepts : Obligations.ValidationRefusesOrAccepts := by
  unfold Obligations.ValidationRefusesOrAccepts
  intro r s
  dsimp only
  refine ⟨?snapshot, fun notFailsafe guarded => ?guarded, fun free full => ?full, fun free room => ?accepted⟩
  case snapshot =>
    cases r with
    | command b => rfl
    | cue c => rfl
    | failsafe => exact ⟨fun x => Table.get_tab _ _, fun q => Table.get_tab _ _⟩
  case guarded =>
    rw [validate_of_guarded ((guardFails_iff r _ s).2 ⟨notFailsafe, guarded⟩)]
    have k := frame_refuseCommit s r .refusedGuarded .refusedGuarded .refusedGuarded
      [firstOr255 (guardedDestDiffs s.guards (snapshotFor r s) s.active),
        firstOr255 (guardedQuadDiffs s.guards (snapshotFor r s) s.active)]
    have told := refuseCommit_told r .refusedGuarded .refusedGuarded .refusedGuarded
      [firstOr255 (guardedDestDiffs s.guards (snapshotFor r s) s.active),
        firstOr255 (guardedQuadDiffs s.guards (snapshotFor r s) s.active)] s
    refine ⟨refuseCommit_ce _ _ _ _ _ s, k.active rfl, k.tpt rfl, ?_⟩
    cases r <;> exact told
  case full =>
    have unguarded : guardFails r (snapshotFor r s) s = false := by
      rw [← Bool.not_eq_true, guardFails_iff]
      rintro ⟨notFailsafe, guarded⟩
      exact free.elim notFailsafe fun not => not guarded
    rw [validate_of_full unguarded full]
    have k := frame_refuseCommit s r .refusedTableFull .refusedTableFull .refusedTableFull
      [numWord (unionPairs (snapshotFor r s) s).length, numWord (heldPairs s.tpt).length]
    have told := refuseCommit_told r .refusedTableFull .refusedTableFull .refusedTableFull
      [numWord (unionPairs (snapshotFor r s) s).length, numWord (heldPairs s.tpt).length] s
    refine ⟨refuseCommit_ce _ _ _ _ _ s, k.active rfl, k.tpt rfl, ?_⟩
    cases r <;> exact told
  case accepted =>
    have unguarded : guardFails r (snapshotFor r s) s = false := by
      rw [← Bool.not_eq_true, guardFails_iff]
      rintro ⟨notFailsafe, guarded⟩
      exact free.elim notFailsafe fun not => not guarded
    rw [validate_of_accepted unguarded room]
    have accepted := acceptCommit_switchedOn r (snapshotFor r s) s
    have k := frame_acceptCommit_beside r (snapshotFor r s) s
    have ce := accepted.ce
    have entries := accepted.entries
    have modes := accepted.modes
    have walked : acceptCommit r (snapshotFor r s) s = walk (List.finRange 8) switchIfStopped
      ((s.setTpt (reserveFor (snapshotFor r s) s.tpt)).setCe
        { s.ce with inFlight := some (newInFlight r (snapshotFor r s) s) }) := rfl
    rw [newInFlight_eq] at ce walked entries modes
    refine ⟨?_, ?_, fun x => ?_, fun q => ?_, fun i running => ?_, k.log rfl, k.cues rfl, k.mgmt rfl⟩
    · cases r <;> exact walked
    · cases r <;> exact ce
    · rw [entries]
      cases domainRunning s (destDomain x) <;> rfl
    · rw [modes]
      cases domainRunning s (quadDomain q) <;> rfl
    · exact accepted.records i (by rw [Bool.not_eq_false']; exact running)

end Machine
end Sys2Proof
end

section
/-! PROOF. O45: the COMMIT command (R96, R115). -/

namespace Sys2Proof
namespace Machine

/-- A management row of a ready part whose act stays in flight: the state that the act leaves, where no command waits in it (R164). -/
theorem manageRow_of_noneWaits {code tag : Byte} {args : List Word} {s t : State} {r : CommandRow} (ready : s.ready = true)
    (count : args.length ≤ Config.maxArgs) (row : codeRow? code = some r)
    (acts : act r args (s.judging ⟨tag, code, args⟩) = .inFlight t) (rests : t.noneWaits = true) :
    manageRow code tag args s = t := by
  rw [manageRow, feedEvent_of_awake _ s (awake_of_ready ready), manage, if_pos count, acceptCommand_of_ready _ s ready, row]
  dsimp only
  rw [acts]
  exact finish_of_noneWaits t rests

theorem noneWaits_judging (c : Command) (s : State) : (s.judging c).noneWaits = true := rfl

/-- The answer of a command in flight: its state beside Management, and one more answer at the end of the AQ (R165). -/
theorem answerCommand_judging {g : State → State} (beside : BesideMgmt g) {s : State} (ready : s.ready = true) (c : Command)
    (v : Verdict) (words : List Word) :
    answerCommand v words (g (s.judging c)) = (g (restartTimer s)).answering c.tag c.code v words := by
  obtain ⟨queue, cx, discard⟩ := restarted_fields ready
  unfold State.judging State.answering answerCommand
  rw [beside, setMgmt_setMgmt, beside.mgmt]
  congr 1
  generalize (restartTimer s).mgmt = m at *
  cases m
  simp_all [completedManagement, State.setMgmt]

theorem besideMgmt_setCe (e : Engine) : BesideMgmt (·.setCe e) := fun _ _ => rfl

theorem firstOr255_eq {n : Nat} (l : List (Fin n)) : firstOr255 l = l.head?.elim 255 fun x => numWord x.val := by
  cases l <;> rfl

theorem heldPairs_length (t : Table 64 TakePoint) : (heldPairs t).length = (t.cells.filter fun tp => tp.state != .free).length :=
  List.length_map _

theorem exec_commit (tag : Byte) (args : List Word) (s : State) : exec (.commit tag args) s = .next (manageRow 24 tag args s) := rfl

theorem actCommit_of_code (b : Staging) (s : State) :
    actCommit [numWord (stagingCode b)] s = .inFlight (requestCommit (.command b) s) := by
  unfold actCommit
  dsimp only
  rw [stagingArg?_stagingCode]

theorem actCommit_of_range {w : Word} (notS0 : w ≠ 1) (notS1 : w ≠ 2) (s : State) : actCommit [w] s = refusedArgument s := by
  unfold actCommit
  dsimp only
  rw [stagingArg?_none notS0 notS1]

theorem actCommit_of_count {args : List Word} (count : args.length ≠ 1) (s : State) : actCommit args s = refusedArgument s := by
  unfold actCommit
  split
  · simp at count
  · rfl

section
variable {s : State} (ready : s.ready = true) (b : Staging) (tag : Byte)
include ready

/-- COMMIT of a ready part is its request, made while the command is in flight (R115). -/
theorem exec_commit_of_code : exec (.commit tag [numWord (stagingCode b)]) s =
    .next (requestCommit (.command b) (s.judging ⟨tag, 24, [numWord (stagingCode b)]⟩)) := by
  rw [exec_commit, manageRow_of_noneWaits (r := .commit) ready (length_singleton_le_maxArgs _) rfl (actCommit_of_code b _)]
  exact noneWaits_requestCommit _ _ (noneWaits_judging _ _)

end

/-- What a validation reads of a state that differs in Management alone. -/
theorem snapshotFor_command_setMgmt (b : Staging) (s : State) (m : Management) :
    snapshotFor (.command b) (s.setMgmt m) = stagingOf s b := by
  cases b <;> rfl

/-- Settles O45: COMMIT is the request of its staging bank, and a request that is refused is answered at once. -/
theorem commitCommandMakesRequest : Obligations.CommitCommandMakesRequest := by
  unfold Obligations.CommitCommandMakesRequest
  intro tag b s ready
  dsimp only
  obtain ⟨m, judged⟩ := judging_of_awake (awake_of_ready ready) ⟨tag, 24, [numWord (stagingCode b)]⟩
  have ce : (s.judging ⟨tag, 24, [numWord (stagingCode b)]⟩).ce = s.ce := by rw [judged]; rfl
  have snapshot : snapshotFor (.command b) (s.judging ⟨tag, 24, [numWord (stagingCode b)]⟩) = stagingOf s b := by
    rw [judged, snapshotFor_command_setMgmt]
  have guards : (s.judging ⟨tag, 24, [numWord (stagingCode b)]⟩).guards = s.guards := by rw [judged]; rfl
  have active : (s.judging ⟨tag, 24, [numWord (stagingCode b)]⟩).active = s.active := by rw [judged]; rfl
  have tpt : (s.judging ⟨tag, 24, [numWord (stagingCode b)]⟩).tpt = s.tpt := by rw [judged]; rfl
  have union : unionPairs (stagingOf s b) (s.judging ⟨tag, 24, [numWord (stagingCode b)]⟩) = unionPairs (stagingOf s b) s := by
    rw [judged]
    rfl
  have made := exec_commit_of_code ready b tag
  generalize judging : s.judging ⟨tag, 24, [numWord (stagingCode b)]⟩ = j at *
  have fails : guardFails (.command b) (stagingOf s b) j = true ↔
      guardedDestDiffs s.guards (stagingOf s b) s.active ≠ [] ∨ guardedQuadDiffs s.guards (stagingOf s b) s.active ≠ [] := by
    rw [guardFails_iff, ChangesGuarded, guards, active, guardedDestDiffs_ne_nil, guardedQuadDiffs_ne_nil]
    exact and_iff_right nofun
  have refusal : ∀ (result : CommitResult) (v : Verdict) (o : CueOutcome) (words : List Word),
      refuseCommit (.command b) result v o words j =
        ((restartTimer s).setCe { s.ce with lastSource := some (.command b), lastResult := result }).answering tag 24 v
          (numWord (stagingCode b) :: words) := fun result v o words => by
    have answered := answerCommand_judging (besideMgmt_setCe { s.ce with lastSource := some (.command b), lastResult := result })
      ready ⟨tag, 24, [numWord (stagingCode b)]⟩ v (numWord (stagingCode b) :: words)
    rw [judging] at answered
    rw [← answered, ← ce]
    rfl
  refine ⟨fun busy => ?busy, fun idle => ?idle, fun idle guarded => ?guarded, fun idle dests quads full => ?full,
    fun idle dests quads room => ?room, fun w notS0 notS1 => ?range⟩
  case busy =>
    rw [made, requestCommit_of_busy (r := .command b) (by rw [ce]; exact busy) nofun, ce]
  case idle =>
    rw [made, requestCommit_of_idle (by rw [ce]; exact idle)]
  case guarded =>
    rw [made, requestCommit_of_idle (by rw [ce]; exact idle), validate_of_guarded (by rw [snapshot]; exact fails.2 guarded),
      refusal, snapshot, guards, active, firstOr255_eq, firstOr255_eq]
    rfl
  case full =>
    have unguarded : guardFails (.command b) (stagingOf s b) j = false := by
      rw [← Bool.not_eq_true, fails]
      exact fun h => h.elim (fun h => h dests) fun h => h quads
    rw [made, requestCommit_of_idle (by rw [ce]; exact idle),
      validate_of_full (by rw [snapshot]; exact unguarded) (by rw [snapshot, union]; exact full), refusal, snapshot, union, tpt,
      heldPairs_length]
  case room =>
    have unguarded : guardFails (.command b) (stagingOf s b) j = false := by
      rw [← Bool.not_eq_true, fails]
      exact fun h => h.elim (fun h => h dests) fun h => h quads
    have accepted := acceptCommit_switchedOn (.command b) (stagingOf s b) j
    have mgmt : (acceptCommit (.command b) (stagingOf s b) j).mgmt = j.mgmt := (frame_acceptCommit_beside _ _ _).mgmt rfl
    have answers : j.mgmt.answers = s.mgmt.answers := by
      rw [← judging, State.judging, restartTimer_of_awake s (awake_of_ready ready)]
      rfl
    rw [made, requestCommit_of_idle (by rw [ce]; exact idle),
      validate_of_accepted (by rw [snapshot]; exact unguarded) (by rw [snapshot, union]; exact room), snapshot]
    have flight : (acceptCommit (.command b) (stagingOf s b) j).ce.inFlight = some { newInFlight (.command b) (stagingOf s b) j with
        switched := Table.tab 9 fun d => !domainRunning j d } := by rw [accepted.ce]
    refine ⟨_, _, rfl, by rw [mgmt, ← judging]; rfl, by rw [mgmt, ← judging]; rfl, by rw [mgmt, answers], flight, rfl, rfl, ?_⟩
    rw [accepted.ce, ← ce]
    rfl
  case range =>
    rw [exec_commit]
    exact row_refused .commit tag (length_singleton_le_maxArgs w) (actCommit_of_range notS0 notS1) ready

end Machine
end Sys2Proof
end

section
/-! PROOF. O43: the completion of a commit (R96, R106, R112, R115). -/

namespace Sys2Proof
namespace Machine

theorem unreserve_get (t : Table 64 TakePoint) (i : RecordNo) : (unreserve t).get i = { t.get i with
    reserved := false, state := if (t.get i).references = 0 then .free else (t.get i).state } := by
  have e : (unreserve t).get i = TakePoint.freedIfUnused { t.get i with reserved := false } := Table.get_map _ _ _
  rw [e, TakePoint.freedIfUnused_rest, TakePoint.freedIfUnused_state]
  simp only [and_true]

/-- The Commit Engine when a commit has completed (R106). -/
def Engine.completed (e : Engine) (c : InFlight) : Engine :=
  { e with inFlight := none, commitCount := e.commitCount + 1, lastSource := some c.requester, lastResult := .done }

/-- The part when a commit has completed, before what waits is taken (R106). -/
def completedPart (c : InFlight) (s : State) : State :=
  endCommit c ((s.setTpt (unreserve s.tpt)).setCe (s.ce.completed c))

section
variable (c : InFlight) (s : State)

theorem completedPart_ce : (completedPart c s).ce = s.ce.completed c := (frame_endCommit _ c).ce rfl

theorem completedPart_tpt : (completedPart c s).tpt = unreserve s.tpt := (frame_endCommit _ c).tpt rfl

theorem completedPart_active : (completedPart c s).active = s.active := (frame_endCommit _ c).active rfl

theorem completeCommit_eq : completeCommit c s = takeWaiting s.ce.waiting (completedPart c s) := by
  have waiting : (completedPart c s).ce.waiting = s.ce.waiting := by
    rw [completedPart_ce]
    rfl
  rw [← waiting]
  rfl

theorem completeCommit_of_none_waiting {c : InFlight} {s : State} (h : s.ce.waiting = []) :
    completeCommit c s = completedPart c s := by
  rw [completeCommit_eq, h]
  rfl

end

/-! ## The end of the requester (R106, R112, R115) -/

theorem endCommit_of_command {c : InFlight} {b : Staging} (h : c.requester = .command b) (s : State) :
    endCommit c s = answerCommand .done
      [numWord (stagingCode b), s.ce.commitCount, numWord c.allocated, numWord (usedRecords s.tpt)] s := by
  unfold endCommit
  rw [h]

theorem endCommit_of_cue {c : InFlight} {i : CueNo} (h : c.requester = .cue i) (s : State) :
    endCommit c s = if cueCompletion c = .done then s.setCue i { s.cues.get i with outcome := cueCompletion c }
      else report .cueLate (.cue i) (s.setCue i { s.cues.get i with outcome := cueCompletion c }) := by
  unfold endCommit
  rw [h]

theorem endCommit_of_failsafe {c : InFlight} (h : c.requester = .failsafe) (s : State) : endCommit c s = s := by
  unfold endCommit
  rw [h]

theorem cueCompletion_of_punctual {c : InFlight} (late : c.fireLateness = 0) (mark : c.dueMark = false) :
    cueCompletion c = .done := if_pos ⟨late, mark⟩

theorem cueCompletion_of_late {c : InFlight} (h : c.fireLateness ≠ 0 ∨ c.dueMark = true) :
    cueCompletion c = .late (min 65535 (c.fireLateness + c.framesWaited)) := by
  refine if_neg fun punctual => ?_
  rcases h with late | mark
  · exact late punctual.1
  · rw [punctual.2] at mark
    cases mark

theorem answerCommand_of_head {c : Command} {rest : List Command} {s : State} (queue : s.mgmt.queue = c :: rest)
    (kept : s.mgmt.discard = false) (v : Verdict) (words : List Word) :
    answerCommand v words s = s.setMgmt { s.mgmt with
      queue := rest, cx := .idle, answers := s.mgmt.answers ++ [⟨c.tag, c.code, v, words⟩] } := by
  unfold answerCommand completedManagement
  rw [queue]
  dsimp only
  rw [kept]
  rfl

theorem answerCommand_of_discarded {c : Command} {rest : List Command} {s : State} (queue : s.mgmt.queue = c :: rest)
    (discard : s.mgmt.discard = true) (v : Verdict) (words : List Word) :
    answerCommand v words s = s.setMgmt { s.mgmt with queue := rest, cx := .idle, discard := false } := by
  unfold answerCommand completedManagement
  rw [queue]
  dsimp only
  rw [discard]
  rfl

/-- A request taken from the waiting order: it is validated, and the order goes on where it is refused (R96, R111). -/
theorem takeWaiting_cons (r : Requester) (rest : List Requester) (s : State) :
    takeWaiting (r :: rest) s =
      let v := validate r (leaveOrder r (s.setCe { s.ce with waiting := rest }))
      if v.ce.inFlight.isSome then v else takeWaiting rest v := rfl

/-- Settles O43: what completes is completedPart, and the waiting order is taken request by request. -/
theorem completionFreesRecords : Obligations.CompletionFreesRecords := by
  unfold Obligations.CompletionFreesRecords
  refine ⟨fun c s => ⟨completedPart c s, completeCommit_eq c s, completedPart_active c s, completedPart_ce c s, fun i => ?record⟩,
    fun r rest s => ?order, fun c s none => ?alone⟩
  case record => rw [completedPart_tpt, unreserve_get]
  case order =>
    dsimp only
    refine ⟨rfl, fun some => ?_, fun none => ?_⟩
    · rw [takeWaiting_cons]
      cases r <;> exact if_pos (Option.isSome_iff_ne_none.2 some)
    · rw [takeWaiting_cons]
      cases r <;> exact if_neg fun some => Option.isSome_iff_ne_none.1 some none
  case alone =>
    dsimp only
    rw [completeCommit_of_none_waiting none]
    refine ⟨completedPart_ce c s, fun i => by rw [completedPart_tpt, unreserve_get], completedPart_active c s,
      fun b q rest command queue kept => ?answers, fun failsafe => ?silent, fun i cue => ⟨fun late mark => ?punctual, fun late => ?late⟩⟩
    case answers =>
      have e := endCommit_of_command command ((s.setTpt (unreserve s.tpt)).setCe (s.ce.completed c))
      rw [answerCommand_of_head (s := (s.setTpt (unreserve s.tpt)).setCe (s.ce.completed c)) queue kept] at e
      rw [completedPart_tpt]
      unfold completedPart
      rw [e]
      refine ⟨rfl, rfl, ?_⟩
      rw [← heldPairs_length]
      rfl
    case silent =>
      unfold completedPart
      rw [endCommit_of_failsafe failsafe]
      exact ⟨rfl, rfl, rfl⟩
    case punctual =>
      have done := cueCompletion_of_punctual late mark
      unfold completedPart
      rw [endCommit_of_cue cue, if_pos done, done]
      exact ⟨congrArg Cue.outcome (Table.get_set_same _ _ _), rfl⟩
    case late =>
      have waited := cueCompletion_of_late late
      unfold completedPart
      rw [endCommit_of_cue cue, if_neg (by rw [waited]; nofun), waited]
      refine ⟨?_, report_tells _ _ _⟩
      rw [(frame_report _ _ _).cues rfl]
      exact congrArg Cue.outcome (Table.get_set_same _ _ _)

end Machine
end Sys2Proof
end

section
/-! PROOF. O41: the allocation and the reservation of a commit (R55, R99, R100). -/

namespace Sys2Proof
namespace Machine

/-! ## The FREE records in order -/

/-- The FREE records of a table, lowest index first. -/
def freePlaces (t : Table 64 TakePoint) : List RecordNo := (List.finRange 64).filter fun i => (t.get i).state = .free

theorem mem_freePlaces (t : Table 64 TakePoint) (i : RecordNo) : i ∈ freePlaces t ↔ (t.get i).state = .free := by
  unfold freePlaces
  rw [List.mem_filter]
  simp

theorem freePlaces_nodup (t : Table 64 TakePoint) : (freePlaces t).Nodup := (List.nodup_finRange 64).filter _

theorem freePlaces_sorted (t : Table 64 TakePoint) : (freePlaces t).Pairwise (· < ·) :=
  (List.sortedLT_finRange 64).pairwise.filter _

theorem idxOf_freePlaces {t : Table 64 TakePoint} {n : Nat} {i : RecordNo} (h : (freePlaces t)[n]? = some i) :
    (freePlaces t).idxOf i = n := by
  obtain ⟨lt, rfl⟩ := List.getElem?_eq_some_iff.1 h
  exact (freePlaces_nodup t).idxOf_getElem n lt

theorem freePlaces_le {t : Table 64 TakePoint} {m n : Nat} {i j : RecordNo} (hi : (freePlaces t)[m]? = some i)
    (hj : (freePlaces t)[n]? = some j) (le : m ≤ n) : i ≤ j := by
  obtain ⟨lt, rfl⟩ := List.getElem?_eq_some_iff.1 hi
  obtain ⟨lt', rfl⟩ := List.getElem?_eq_some_iff.1 hj
  rcases Nat.eq_or_lt_of_le le with rfl | less
  · exact le_refl _
  · exact (List.pairwise_iff_getElem.1 (freePlaces_sorted t) m n lt lt' less).le

theorem exists_freePlace {t : Table 64 TakePoint} {i : RecordNo} (h : (t.get i).state = .free) :
    ∃ n : Nat, (freePlaces t)[n]? = some i := List.mem_iff_getElem?.1 ((mem_freePlaces t i).2 h)

/-- The records that are not FREE are those that are no places of freePlaces. -/
theorem freePlaces_length (t : Table 64 TakePoint) : (freePlaces t).length + (heldPairs t).length = 64 := by
  have all := List.length_eq_length_filter_add (l := List.finRange 64) fun i => decide ((t.get i).state = .free)
  have used : (heldPairs t).length = ((List.finRange 64).filter fun i => !decide ((t.get i).state = .free)).length := by
    unfold heldPairs
    rw [List.length_map, Table.cells_eq_map_get, List.filter_map, List.length_map]
    congr 2
  rw [List.length_finRange] at all
  rw [used]
  exact all.symm

/-! ## Pairs on the FREE records -/

section
variable (make : RingNo × Domain → TakePoint) (t : Table 64 TakePoint)

/-- The table with the pairs of a list made into records, one after another on the FREE ones. -/
def allocatedTo (l : List (RingNo × Domain)) : Table 64 TakePoint := Table.tab 64 fun i =>
  if (t.get i).state = .free then l[(freePlaces t).idxOf i]?.elim (t.get i) make else t.get i

theorem allocatedTo_get_used {l : List (RingNo × Domain)} {i : RecordNo} (h : (t.get i).state ≠ .free) :
    (allocatedTo make t l).get i = t.get i := by
  unfold allocatedTo
  rw [Table.get_tab, if_neg h]

theorem allocatedTo_get_free {l : List (RingNo × Domain)} {n : Nat} {i : RecordNo} (h : (freePlaces t)[n]? = some i) :
    (allocatedTo make t l).get i = l[n]?.elim (t.get i) make := by
  unfold allocatedTo
  rw [Table.get_tab, if_pos ((mem_freePlaces t i).1 (List.mem_of_getElem? h)), idxOf_freePlaces h]

theorem allocatedTo_nil : allocatedTo make t [] = t := by
  refine Table.ext_get fun i => ?_
  unfold allocatedTo
  rw [Table.get_tab]
  split <;> rfl

theorem allocatedTo_append {l : List (RingNo × Domain)} {i : RecordNo} (next : (freePlaces t)[l.length]? = some i)
    (p : RingNo × Domain) : allocatedTo make t (l ++ [p]) = (allocatedTo make t l).set i (make p) := by
  refine Table.ext_get fun j => ?_
  rw [Table.get_set]
  by_cases free : (t.get j).state = .free
  · obtain ⟨n, place⟩ := exists_freePlace free
    rw [allocatedTo_get_free _ _ place, allocatedTo_get_free _ _ place]
    split
    · rename_i same
      subst same
      have e : n = l.length := by rw [← idxOf_freePlaces place, idxOf_freePlaces next]
      rw [e, List.getElem?_concat_length]
      rfl
    · rename_i other
      have apart : n ≠ l.length := fun e => other (by
        rw [← e, place] at next
        exact (Option.some.inj next).symm)
      rcases Nat.lt_or_ge n l.length with lt | ge
      · rw [List.getElem?_append_left lt]
      · rw [List.getElem?_eq_none (by rw [List.length_append, List.length_singleton]; omega), List.getElem?_eq_none (by omega)]
  · have other : i ≠ j := by
      rintro rfl
      exact free ((mem_freePlaces t i).1 (List.mem_of_getElem? next))
    rw [if_neg other, allocatedTo_get_used _ _ free, allocatedTo_get_used _ _ free]

variable {make}

/-- Whether a record is still FREE when the pairs have been made. -/
theorem allocatedTo_free_iff (used : ∀ p, (make p).state ≠ .free) {l : List (RingNo × Domain)} {n : Nat} {i : RecordNo}
    (h : (freePlaces t)[n]? = some i) : ((allocatedTo make t l).get i).state = .free ↔ l.length ≤ n := by
  rw [allocatedTo_get_free _ _ h]
  rcases Nat.lt_or_ge n l.length with lt | ge
  · rw [List.getElem?_eq_getElem lt]
    exact ⟨fun free => absurd free (used _), fun le => absurd lt (by omega)⟩
  · rw [List.getElem?_eq_none ge]
    exact ⟨fun _ => ge, fun _ => (mem_freePlaces t i).1 (List.mem_of_getElem? h)⟩

/-- The next pair takes the next FREE record (R55, R100). -/
theorem allocate_allocatedTo (used : ∀ p, (make p).state ≠ .free) {l : List (RingNo × Domain)} {i : RecordNo}
    (next : (freePlaces t)[l.length]? = some i) (p : RingNo × Domain) (reserved : Bool) (references : Nat) :
    allocate p reserved references (allocatedTo make t l) =
      (allocatedTo make t l).set i (TakePoint.allocated p reserved references) := by
  have free := (allocatedTo_free_iff t used next (l := l)).2 le_rfl
  obtain ⟨full, -⟩ | ⟨j, freeJ, first, e⟩ := allocate_cases p reserved references (allocatedTo make t l)
  · exact absurd free (full i)
  · have own : (t.get j).state = .free := by
      by_contra not
      rw [allocatedTo_get_used _ _ not] at freeJ
      exact not freeJ
    obtain ⟨n, place⟩ := exists_freePlace own
    have later := freePlaces_le next place ((allocatedTo_free_iff t used place).1 freeJ)
    have same : j = i := le_antisymm (not_lt.1 fun lt => first i lt free) later
    rw [e, same]

/-- A record made of a pair is of that pair. -/
def Makes (make : RingNo × Domain → TakePoint) : Prop := ∀ p, (make p).state ≠ .free ∧ ((make p).ring, (make p).domain) = p

theorem mem_heldPairs (p : RingNo × Domain) : p ∈ heldPairs t ↔ ∃ i, (t.get i).holds p = true := by
  unfold heldPairs
  rw [Table.cells_eq_map_get]
  simp only [List.mem_map, List.mem_filter, bne_iff_ne, List.mem_finRange, true_and, TakePoint.holds_iff]
  constructor
  · rintro ⟨tp, ⟨⟨i, rfl⟩, used⟩, pair⟩
    exact ⟨i, used, pair⟩
  · rintro ⟨i, used, pair⟩
    exact ⟨_, ⟨⟨i, rfl⟩, used⟩, pair⟩

theorem allocatedTo_holds (makes : Makes make) {l : List (RingNo × Domain)} (room : l.length ≤ (freePlaces t).length)
    (p : RingNo × Domain) : (∃ i, ((allocatedTo make t l).get i).holds p = true) ↔ p ∈ heldPairs t ∨ p ∈ l := by
  rw [mem_heldPairs]
  constructor
  · rintro ⟨i, holds⟩
    by_cases free : (t.get i).state = .free
    · obtain ⟨n, place⟩ := exists_freePlace free
      rw [allocatedTo_get_free _ _ place] at holds
      cases made : l[n]? with
      | none =>
        rw [made] at holds
        exact absurd free ((TakePoint.holds_iff _ _).1 holds).1
      | some pr =>
        rw [made] at holds
        have pair := ((TakePoint.holds_iff _ _).1 holds).2
        rw [Option.elim_some, (makes pr).2] at pair
        exact Or.inr (pair ▸ List.mem_of_getElem? made)
    · rw [allocatedTo_get_used _ _ free] at holds
      exact Or.inl ⟨i, holds⟩
  · rintro (⟨i, holds⟩ | mem)
    · refine ⟨i, ?_⟩
      rw [allocatedTo_get_used _ _ ((TakePoint.holds_iff _ _).1 holds).1]
      exact holds
    · obtain ⟨n, lt, rfl⟩ := List.mem_iff_getElem.1 mem
      have place : (freePlaces t)[n]? = some (freePlaces t)[n] := List.getElem?_eq_getElem (by omega)
      refine ⟨(freePlaces t)[n], ?_⟩
      rw [allocatedTo_get_free _ _ place, List.getElem?_eq_getElem lt, TakePoint.holds_iff]
      exact makes _

end

/-! ## The pairs that a walk allocates -/

/-- One pair of the walk joins those to allocate, unless a record holds it or it is among them (R100). -/
def joinFresh (held l : List (RingNo × Domain)) (p : RingNo × Domain) : List (RingNo × Domain) :=
  if p ∈ held ∨ p ∈ l then l else l ++ [p]

theorem joinFresh_length (held l : List (RingNo × Domain)) (need : List (RingNo × Domain)) :
    l.length ≤ (need.foldl (joinFresh held) l).length := by
  induction need generalizing l with
  | nil => exact le_rfl
  | cons p need ih =>
    refine le_trans ?_ (ih (joinFresh held l p))
    unfold joinFresh
    split
    · exact le_rfl
    · rw [List.length_append]
      omega

theorem joinFresh_nodup (held : List (RingNo × Domain)) {l : List (RingNo × Domain)} (need : List (RingNo × Domain))
    (nodup : l.Nodup) : (need.foldl (joinFresh held) l).Nodup := by
  induction need generalizing l with
  | nil => exact nodup
  | cons p need ih =>
    refine ih ?_
    unfold joinFresh
    split
    · exact nodup
    · rename_i new
      exact List.nodup_append.2 ⟨nodup, List.nodup_singleton p, fun a ha b hb => by
        rw [List.mem_singleton] at hb
        subst hb
        rintro rfl
        exact new (Or.inr ha)⟩

theorem mem_joinFresh (held l need : List (RingNo × Domain)) (q : RingNo × Domain) :
    q ∈ need.foldl (joinFresh held) l ↔ q ∈ l ∨ (q ∈ need ∧ q ∉ held) := by
  induction need generalizing l with
  | nil => simp
  | cons p need ih =>
    rw [List.foldl_cons, ih]
    have head : q ∈ joinFresh held l p ↔ q ∈ l ∨ (q = p ∧ q ∉ held) := by
      unfold joinFresh
      split
      · rename_i known
        refine ⟨Or.inl, fun h => h.elim id ?_⟩
        rintro ⟨rfl, new⟩
        exact known.resolve_left new
      · rename_i new
        rw [List.mem_append, List.mem_singleton]
        refine or_congr_right ⟨?_, And.left⟩
        rintro rfl
        exact ⟨rfl, fun mem => new (Or.inl mem)⟩
    rw [head, List.mem_cons]
    tauto

/-- The pairs allocated number the needed ones that no record held (R100). -/
theorem joinFresh_count (held need : List (RingNo × Domain)) :
    (need.foldl (joinFresh held) []).length = (need.dedup.filter fun p => p ∉ held).length := by
  refine List.Perm.length_eq ((List.perm_ext_iff_of_nodup (joinFresh_nodup held need List.nodup_nil)
    ((List.nodup_dedup need).filter _)).2 fun p => ?_)
  rw [mem_joinFresh, List.mem_filter, List.mem_dedup]
  simp

/-- The record that an allocation for a commit makes of a pair (R55, R100). -/
def reservedRecord (p : RingNo × Domain) : TakePoint := TakePoint.allocated p true 0

theorem makes_reservedRecord : Makes reservedRecord := fun _ => ⟨nofun, rfl⟩

/-- The walk of a commit allocates the fresh pairs, in the order in which it comes to them (R100). -/
theorem foldl_allocateReserved (t : Table 64 TakePoint) (need : List (RingNo × Domain)) {l : List (RingNo × Domain)}
    (room : (need.foldl (joinFresh (heldPairs t)) l).length ≤ (freePlaces t).length) :
    need.foldl allocateReserved (allocatedTo reservedRecord t l) =
      allocatedTo reservedRecord t (need.foldl (joinFresh (heldPairs t)) l) := by
  induction need generalizing l with
  | nil => rfl
  | cons p need ih =>
    rw [List.foldl_cons] at room
    have fits : l.length ≤ (freePlaces t).length :=
      (joinFresh_length (heldPairs t) l (p :: need)).trans room
    have step : allocateReserved (allocatedTo reservedRecord t l) p =
        allocatedTo reservedRecord t (joinFresh (heldPairs t) l p) := by
      have holds := (any_holds_iff _ p).trans (allocatedTo_holds t makes_reservedRecord fits p)
      unfold allocateReserved joinFresh
      by_cases known : p ∈ heldPairs t ∨ p ∈ l
      · rw [if_pos (holds.2 known), if_pos known]
      · have longer := (joinFresh_length (heldPairs t) (joinFresh (heldPairs t) l p) need).trans room
        rw [joinFresh, if_neg known, List.length_append, List.length_singleton] at longer
        have next : (freePlaces t)[l.length]? = some (freePlaces t)[l.length] := List.getElem?_eq_getElem (by omega)
        rw [if_neg fun h => known (holds.1 h), if_neg known, allocatedTo_append _ _ next,
          allocate_allocatedTo t (fun p => (makes_reservedRecord p).1) next]
        rfl
    rw [List.foldl_cons, List.foldl_cons, step]
    exact ih room

/-! ## The reservation -/

theorem mem_unionPairs (p : Bank) (s : State) (pr : RingNo × Domain) :
    pr ∈ unionPairs p s ↔ pr ∈ heldPairs s.tpt ∨ pr ∈ bankPairs p := by
  unfold unionPairs
  rw [List.mem_dedup, List.mem_append]

/-- The pairs that a commit to this bank allocates, in order (R100). -/
def freshPairs (p : Bank) (t : Table 64 TakePoint) : List (RingNo × Domain) := (bankPairs p).foldl (joinFresh (heldPairs t)) []

theorem freshPairs_fit {p : Bank} {s : State} (distinct : pairsDistinct s.tpt = true) (room : (unionPairs p s).length ≤ 64) :
    (freshPairs p s.tpt).length ≤ (freePlaces s.tpt).length := by
  have nodup : (heldPairs s.tpt).Nodup := of_decide_eq_true distinct
  have all := freePlaces_length s.tpt
  have count := joinFresh_count (heldPairs s.tpt) (bankPairs p)
  unfold unionPairs at room
  rw [length_dedup_append, nodup.dedup] at room
  unfold freshPairs
  rw [count]
  have same : ((bankPairs p).dedup.filter fun pr => pr ∉ heldPairs s.tpt).length ≤ 64 - (heldPairs s.tpt).length := by
    refine Nat.le_sub_of_add_le ((Nat.add_comm _ _).trans_le (le_trans (le_of_eq ?_) room))
    exact congrArg _ (congrArg List.length (List.filter_congr fun _ _ => decide_eq_decide.2 Iff.rfl))
  omega

theorem reserveFor_get {p : Bank} {t : Table 64 TakePoint} (fits : (freshPairs p t).length ≤ (freePlaces t).length)
    (i : RecordNo) :
    (reserveFor p t).get i = ((allocatedTo reservedRecord t (freshPairs p t)).get i).reservedFor (bankPairs p) := by
  have walked := foldl_allocateReserved t (bankPairs p) (l := []) fits
  rw [allocatedTo_nil] at walked
  unfold reserveFor
  rw [walked, Table.get_map]
  rfl

theorem reservedFor_eq (tp : TakePoint) (need : List (RingNo × Domain)) (used : tp.state ≠ .free) :
    tp.reservedFor need = { tp with reserved := tp.reserved || decide ((tp.ring, tp.domain) ∈ need) } := by
  unfold TakePoint.reservedFor
  by_cases mem : (tp.ring, tp.domain) ∈ need
  · rw [if_pos ⟨used, mem⟩, decide_eq_true mem, Bool.or_true]
  · rw [if_neg fun h => mem h.2, decide_eq_false mem, Bool.or_false]

theorem reservedFor_of_free {tp : TakePoint} (free : tp.state = .free) (need : List (RingNo × Domain)) :
    tp.reservedFor need = tp := if_neg fun h => h.1 free

theorem filter_eq_take {α : Type} (q : α → Bool) (l : List α) (k : Nat) (h : ∀ n (lt : n < l.length), q l[n] = decide (n < k)) :
    l.filter q = l.take k := by
  induction l generalizing k with
  | nil => simp
  | cons a l ih =>
    have head := h 0 (by simp)
    have tail := ih (k - 1) fun n lt => by
      have := h (n + 1) (by simp; exact lt)
      rw [List.getElem_cons_succ] at this
      rw [this]
      exact decide_eq_decide.2 (by omega)
    rw [List.getElem_cons_zero] at head
    cases k with
    | zero => rw [List.filter_cons, head, tail]; simp
    | succ k => rw [List.filter_cons, head, tail]; simp

/-- Settles O41: the table after the walk is allocatedTo of the fresh pairs, and the marks are set on it. -/
theorem commitReservesItsPairs : Obligations.CommitReservesItsPairs := by
  unfold Obligations.CommitReservesItsPairs
  refine ⟨⟨fun e d => ?entry, fun p x => rfl, fun p => rfl⟩,
    fun p s => ⟨List.nodup_dedup _, fun pr => ⟨?held, mem_unionPairs p s pr⟩⟩, fun p s distinct room => ?reserve⟩
  case entry =>
    unfold entryPairs
    cases e.source with
    | none => rfl
    | some src => cases e.partner <;> rfl
  case held =>
    rw [mem_heldPairs]
    simp only [TakePoint.holds_iff, Prod.ext_iff]
  case reserve =>
    dsimp only
    have fits := freshPairs_fit distinct room
    have get := reserveFor_get fits
    have nonfree : ∀ n i, (freePlaces s.tpt)[n]? = some i →
        (((reserveFor p s.tpt).get i).state = .free ↔ (freshPairs p s.tpt).length ≤ n) := fun n i place => by
      rw [← allocatedTo_free_iff s.tpt (fun p => (makes_reservedRecord p).1) place, get]
      unfold TakePoint.reservedFor
      split <;> rfl
    refine ⟨?distinct, fun pr mem => ?reserved, fun i used => ?kept, fun n i place => ?fresh, ?count⟩
    case distinct =>
      rw [pairsDistinct_iff] at distinct ⊢
      have walked := List.foldlRecOn (motive := PairsDistinct) (bankPairs p) allocateReserved distinct
        fun t h q _ => h.allocateReserved q
      refine walked.of_pairsFrom fun i => ?_
      simp only [reserveFor, Table.get_map, TakePoint.reservedFor]
      split <;> exact fun used => ⟨used, rfl, rfl⟩
    case reserved =>
      have known : pr ∈ heldPairs s.tpt ∨ pr ∈ freshPairs p s.tpt := by
        unfold freshPairs
        rw [mem_joinFresh]
        tauto
      obtain ⟨i, holds⟩ := (allocatedTo_holds s.tpt makes_reservedRecord fits pr).2 known
      obtain ⟨used, pair⟩ := (TakePoint.holds_iff _ _).1 holds
      refine ⟨i, ?_⟩
      rw [get, reservedFor_eq _ _ used, pair, decide_eq_true mem, Bool.or_true]
      exact ⟨holds, rfl⟩
    case kept =>
      rw [get, allocatedTo_get_used _ _ used, reservedFor_eq _ _ used]
    case fresh =>
      change _ = match (freshPairs p s.tpt)[n]? with | some pr => _ | none => _
      rw [get, allocatedTo_get_free _ _ place]
      cases (freshPairs p s.tpt)[n]? with
      | some pr =>
        rw [Option.elim_some, reservedFor_eq _ _ (makes_reservedRecord pr).1]
        rfl
      | none => exact reservedFor_of_free ((mem_freePlaces s.tpt i).1 (List.mem_of_getElem? place)) _
    case count =>
      have split : ((List.finRange 64).filter fun i => (s.tpt.get i).state = .free ∧ ((reserveFor p s.tpt).get i).state ≠ .free) =
          (freePlaces s.tpt).filter fun i => ((reserveFor p s.tpt).get i).state ≠ .free := by
        unfold freePlaces
        rw [List.filter_filter]
        refine List.filter_congr fun i _ => ?_
        rw [Bool.decide_and, Bool.and_comm]
      have taken := filter_eq_take (fun i => decide (((reserveFor p s.tpt).get i).state ≠ .free)) (freePlaces s.tpt)
        (freshPairs p s.tpt).length fun n lt => by
          have iff := nonfree n _ (List.getElem?_eq_getElem lt)
          exact decide_eq_decide.2 (by rw [Ne, iff, not_le])
      rw [split, taken, List.length_take, Nat.min_eq_left fits]
      exact joinFresh_count _ _

end Machine
end Sys2Proof
end

section
/-! PROOF. O4: start-up allocates the records of the patch it loads (R178). -/

namespace Sys2Proof
namespace Machine

theorem allocatedTo_congr {make make' : RingNo × Domain → TakePoint} {l : List (RingNo × Domain)}
    (h : ∀ p ∈ l, make p = make' p) (t : Table 64 TakePoint) : allocatedTo make t l = allocatedTo make' t l := by
  refine Table.ext_get fun i => ?_
  by_cases free : (t.get i).state = .free
  · obtain ⟨n, place⟩ := exists_freePlace free
    rw [allocatedTo_get_free _ _ place, allocatedTo_get_free _ _ place]
    cases made : l[n]? with
    | none => rfl
    | some p => exact h p (List.mem_of_getElem? made)
  · rw [allocatedTo_get_used _ _ free, allocatedTo_get_used _ _ free]

/-- The Take Point Table before start-up allocates. -/
def emptyTable : Table 64 TakePoint := Table.fill 64 TakePoint.start

theorem emptyTable_free (i : RecordNo) : (emptyTable.get i).state = .free := by
  rw [emptyTable, Table.get_fill]
  rfl

theorem freePlaces_emptyTable : freePlaces emptyTable = List.finRange 64 :=
  List.filter_eq_self.2 fun i _ => decide_eq_true (emptyTable_free i)

theorem freePlaces_emptyTable_get (i : RecordNo) : (freePlaces emptyTable)[i.val]? = some i := by
  rw [freePlaces_emptyTable, List.getElem?_eq_getElem (by simp)]
  simp

theorem heldPairs_emptyTable : heldPairs emptyTable = [] := by
  refine List.eq_nil_iff_forall_not_mem.2 fun p mem => ?_
  obtain ⟨i, holds⟩ := (mem_heldPairs _ p).1 mem
  exact ((TakePoint.holds_iff _ _).1 holds).1 (emptyTable_free i)

/-- The record of a pair when these sources have been walked: one reference for each of them (R178). -/
def loadedRecord (walked : List (RingNo × Domain)) (p : RingNo × Domain) : TakePoint :=
  TakePoint.allocated p false (walked.count p)

theorem makes_loadedRecord (walked : List (RingNo × Domain)) : Makes (loadedRecord walked) := fun _ => ⟨nofun, rfl⟩

/-- The table when these sources have been walked: each pair on a record of its own, in the order in which the walk comes to them. -/
def walkedTable (walked : List (RingNo × Domain)) : Table 64 TakePoint :=
  allocatedTo (loadedRecord walked) emptyTable (walked.foldl (joinFresh []) [])

theorem loadedRecord_snoc_other {p q : RingNo × Domain} (other : q ≠ p) (walked : List (RingNo × Domain)) :
    loadedRecord (walked ++ [p]) q = loadedRecord walked q := by
  unfold loadedRecord
  rw [List.count_append, List.count_singleton, if_neg (by simpa using Ne.symm other), Nat.add_zero]

theorem loadedRecord_snoc_same (p : RingNo × Domain) (walked : List (RingNo × Domain)) :
    loadedRecord (walked ++ [p]) p = TakePoint.allocated p false (walked.count p + 1) := by
  unfold loadedRecord
  rw [List.count_append, List.count_singleton_self]

/-- One more reference on the record of a pair that the walk has come to before. -/
theorem addReference_allocatedTo (walked l : List (RingNo × Domain)) (p : RingNo × Domain) :
    addReference p (allocatedTo (loadedRecord walked) emptyTable l) =
      allocatedTo (loadedRecord (walked ++ [p])) emptyTable l := by
  refine Table.ext_get fun i => ?_
  have place := freePlaces_emptyTable_get i
  have added : (addReference p (allocatedTo (loadedRecord walked) emptyTable l)).get i =
      if ((allocatedTo (loadedRecord walked) emptyTable l).get i).holds p then
        { (allocatedTo (loadedRecord walked) emptyTable l).get i with
          references := ((allocatedTo (loadedRecord walked) emptyTable l).get i).references + 1 }
      else (allocatedTo (loadedRecord walked) emptyTable l).get i := Table.get_map _ _ _
  rw [added, allocatedTo_get_free _ _ place, allocatedTo_get_free _ _ place]
  cases l[i.val]? with
  | none => exact if_neg fun holds => ((TakePoint.holds_iff _ _).1 holds).1 (emptyTable_free i)
  | some q =>
    rw [Option.elim_some, Option.elim_some]
    by_cases same : q = p
    · subst same
      rw [if_pos ((TakePoint.holds_iff _ _).2 (makes_loadedRecord walked q)), loadedRecord_snoc_same]
      rfl
    · rw [loadedRecord_snoc_other same]
      refine if_neg fun holds => same ?_
      have pair := ((TakePoint.holds_iff _ _).1 holds).2
      rwa [(makes_loadedRecord walked q).2] at pair

/-- One source of the walk (R178). -/
theorem loadPair_walkedTable {walked : List (RingNo × Domain)} {p : RingNo × Domain}
    (room : ((walked ++ [p]).foldl (joinFresh []) []).length ≤ 64) :
    loadPair (walkedTable walked) p = walkedTable (walked ++ [p]) := by
  unfold walkedTable
  rw [List.foldl_append, List.foldl_cons, List.foldl_nil] at room ⊢
  generalize made : walked.foldl (joinFresh []) [] = l at room ⊢
  have places : (freePlaces emptyTable).length = 64 := by rw [freePlaces_emptyTable, List.length_finRange]
  have fits : l.length ≤ (freePlaces emptyTable).length := by
    rw [places]
    exact (joinFresh_length [] l [p]).trans room
  have holds := (any_holds_iff _ p).trans (allocatedTo_holds emptyTable (makes_loadedRecord walked) fits p)
  rw [heldPairs_emptyTable] at holds
  unfold loadPair
  by_cases known : p ∈ ([] : List (RingNo × Domain)) ∨ p ∈ l
  · rw [if_pos (holds.2 known), joinFresh, if_pos known, addReference_allocatedTo]
  · have new : p ∉ l := fun mem => known (Or.inr mem)
    rw [joinFresh, if_neg known, List.length_append, List.length_singleton] at room
    have next : (freePlaces emptyTable)[l.length]? = some (freePlaces emptyTable)[l.length] := List.getElem?_eq_getElem (by omega)
    have first : walked.count p = 0 := by
      refine List.count_eq_zero.2 fun mem => new ?_
      rw [← made, mem_joinFresh]
      exact Or.inr ⟨mem, List.not_mem_nil⟩
    have others : ∀ q ∈ l, loadedRecord walked q = loadedRecord (walked ++ [p]) q := fun q mem =>
      (loadedRecord_snoc_other (fun same : q = p => new (same ▸ mem)) walked).symm
    rw [if_neg fun h => known (holds.1 h), joinFresh, if_neg known, allocatedTo_append _ _ next,
      allocate_allocatedTo emptyTable (fun p => (makes_loadedRecord walked p).1) next, allocatedTo_congr others,
      loadedRecord_snoc_same, first]

theorem foldl_loadPair {walked need : List (RingNo × Domain)}
    (room : ((walked ++ need).foldl (joinFresh []) []).length ≤ 64) :
    need.foldl loadPair (walkedTable walked) = walkedTable (walked ++ need) := by
  induction need generalizing walked with
  | nil => rw [List.append_nil, List.foldl_nil]
  | cons p need ih =>
    have split : walked ++ p :: need = walked ++ [p] ++ need := by simp
    rw [split] at room ⊢
    rw [List.foldl_cons, loadPair_walkedTable ?_]
    · exact ih room
    · rw [List.foldl_append] at room
      exact (joinFresh_length [] _ need).trans room

theorem joinFresh_pairNeed (b : Bank) : ((bankPairs b).foldl (joinFresh []) []).length = pairNeed b := by
  rw [joinFresh_count]
  unfold pairNeed
  simp

theorem loadedTable_eq {b : Bank} (room : pairNeed b ≤ 64) : loadedTable b = walkedTable (bankPairs b) :=
  foldl_loadPair (walked := []) (need := bankPairs b) (by rw [List.nil_append, joinFresh_pairNeed]; exact room)

/-- Settles O4: the loaded table is the walked one, whose record i is made of the i-th pair. -/
theorem startUpAllocatesRecords : Obligations.StartUpAllocatesRecords := by
  unfold Obligations.StartUpAllocatesRecords
  intro b room
  rw [loadedTable_eq room]
  have count := joinFresh_pairNeed b
  have makes := makes_loadedRecord (bankPairs b)
  have known := mem_joinFresh [] [] (bankPairs b)
  unfold walkedTable
  generalize (bankPairs b).foldl (joinFresh []) [] = l at *
  refine ⟨fun i => ?_, fun i lt => ?_, fun p mem => ?_⟩
  · rw [← count]
    exact allocatedTo_free_iff emptyTable (fun p => (makes p).1) (freePlaces_emptyTable_get i)
  · rw [← count] at lt
    rw [allocatedTo_get_free _ _ (freePlaces_emptyTable_get i), List.getElem?_eq_getElem lt]
    refine ⟨rfl, rfl, rfl, rfl, rfl, rfl, rfl, List.count_pos_iff.2 ?_⟩
    have mem := (known l[i.val]).1 (List.getElem_mem lt)
    exact mem.elim (fun h => absurd h List.not_mem_nil) And.left
  · refine (allocatedTo_holds emptyTable makes ?_ p).2 (Or.inr ((known p).2 (Or.inr ⟨mem, List.not_mem_nil⟩)))
    rw [freePlaces_emptyTable, List.length_finRange, count]
    exact room

end Machine
end Sys2Proof
end

section
/-! PROOF. O32: the value of a destination, from the record of its pair to its word length (R122 to R132). -/

namespace Sys2Proof
namespace Machine

/-! ## Records and reads (R54, R122) -/

theorem recordOf?_eq_none_iff (s : State) (p : RingNo × Domain) :
    recordOf? s p = none ↔ ∀ i, ¬(s.tpt.get i).holds p = true := by
  unfold recordOf?
  rw [List.find?_eq_none]
  constructor
  · exact fun h i => h _ ((s.tpt.mem_cells_iff _).2 ⟨i, rfl⟩)
  · intro h tp mem
    obtain ⟨i, rfl⟩ := (s.tpt.mem_cells_iff tp).1 mem
    exact h i

theorem recordOf?_eq_some {s : State} {p : RingNo × Domain} {tp : TakePoint} (h : recordOf? s p = some tp) :
    ∃ i, s.tpt.get i = tp ∧ (s.tpt.get i).holds p = true := by
  unfold recordOf? at h
  obtain ⟨i, rfl⟩ := (s.tpt.mem_cells_iff tp).1 (List.mem_of_find?_eq_some h)
  exact ⟨i, rfl, by simpa using List.find?_some h⟩

/-- Where no two records in use are of one pair, the record of a pair is the one that holds it. -/
theorem recordOf?_of_holds {s : State} {p : RingNo × Domain} {i : RecordNo} (distinct : PairsDistinct s.tpt)
    (h : (s.tpt.get i).holds p = true) : recordOf? s p = some (s.tpt.get i) := by
  cases found : recordOf? s p with
  | none => exact absurd h ((recordOf?_eq_none_iff s p).1 found i)
  | some tp =>
    obtain ⟨j, rfl, holds⟩ := recordOf?_eq_some found
    obtain ⟨usedI, pairI⟩ := (TakePoint.holds_iff _ _).1 h
    obtain ⟨usedJ, pairJ⟩ := (TakePoint.holds_iff _ _).1 holds
    by_contra other
    have apart : j ≠ i := fun same => other (by rw [same])
    exact distinct j i apart usedJ usedI (pairJ.trans pairI.symm)

theorem fetch_of_none {s : State} {d : Domain} {src : Source} (h : recordOf? s (sourceRing src, d) = none) (delay : Nat) :
    fetch s d delay src = 0 := by
  unfold fetch
  rw [h]

theorem fetch_of_record {s : State} {d : Domain} {src : Source} {tp : TakePoint}
    (h : recordOf? s (sourceRing src, d) = some tp) (delay : Nat) :
    fetch s d delay src = (setRead s tp delay).elim 0 fun x => activeSample x (sourcePosition src) := by
  unfold fetch
  rw [h]
  dsimp only
  cases setRead s tp delay <;> rfl

/-! ## Division and blending (R125 to R127) -/

/-- The rounded quotient is nearest, halves upwards from 0. -/
theorem roundDiv_of_nonneg {a : Int} (nonneg : 0 ≤ a) {b : Nat} (pos : 0 < b) :
    2 * (roundDiv a b * b - a) ≤ b ∧ -(b : Int) < 2 * (roundDiv a b * b - a) := by
  have whole : (0 : Int) < 2 * b := by omega
  have le := Int.ediv_mul_le (2 * a + b) whole.ne'
  have lt := Int.lt_ediv_add_one_mul_self (2 * a + b) whole
  unfold roundDiv
  rw [if_pos nonneg]
  generalize (2 * a + (b : Int)) / (2 * b) = q at *
  rw [add_mul, one_mul] at lt
  have e : q * (2 * (b : Int)) = 2 * (q * b) := by ring
  rw [e] at le lt
  omega

theorem roundDiv_neg (a : Int) {b : Nat} (pos : 0 < b) : roundDiv (-a) b = -roundDiv a b := by
  have zero : roundDiv 0 b = 0 := by
    unfold roundDiv
    rw [if_pos le_rfl]
    exact Int.ediv_eq_zero_of_lt (by omega) (by omega)
  rcases lt_trichotomy a 0 with neg | rfl | above
  · unfold roundDiv
    rw [if_pos (by omega), if_neg (by omega), neg_neg]
  · rw [neg_zero, zero, neg_zero]
  · unfold roundDiv
    rw [if_neg (by omega), if_pos (by omega), neg_neg]

theorem roundDiv_nearest (a : Int) {b : Nat} (pos : 0 < b) : 2 * (roundDiv a b * b - a).natAbs ≤ b := by
  rcases le_or_gt 0 a with nonneg | neg
  · have := roundDiv_of_nonneg nonneg pos
    omega
  · have mirrored := roundDiv_of_nonneg (a := -a) (by omega) pos
    rw [roundDiv_neg a pos, neg_mul] at mirrored
    omega

theorem roundDiv_mul_self (a : Int) {b : Nat} (pos : 0 < b) : roundDiv (a * b) b = a := by
  have near := roundDiv_nearest (a * b) pos
  rw [← sub_mul, Int.natAbs_mul, Int.natAbs_natCast] at near
  by_contra other
  have apart : 1 ≤ (roundDiv (a * b) b - a).natAbs := by omega
  have := Nat.mul_le_mul_right b apart
  omega

theorem blend_zero (old new : Int) {k : Nat} (pos : 0 < k) : blend old new k 0 = old := by
  unfold blend
  rw [Nat.cast_zero, sub_zero, mul_zero, add_zero, roundDiv_mul_self old pos]

/-! ## The word length (R130, R132) -/

theorem round20_of_nonneg {v : Int} (h : 0 ≤ v) : round20 v = 16 * min 524287 ((v + 8) / 16) := by
  obtain ⟨n, rfl⟩ := Int.eq_ofNat_of_zero_le h
  unfold round20
  cases n with
  | zero => rfl
  | succ n =>
    rw [Int.sign_eq_one_of_pos (by omega), one_mul, Int.natAbs_natCast]
    push_cast
    rfl

theorem round20_of_neg {v : Int} (h : v < 0) : round20 v = -(16 * ((-v + 8) / 16)) := by
  unfold round20
  rw [Int.sign_eq_neg_one_of_neg h]
  omega

theorem saturate_range (x : Int) : -8388608 ≤ saturate x ∧ saturate x ≤ 8388607 := by
  unfold saturate Config.sampleMin Config.sampleMax
  omega

theorem round20_range {v : Int} (low : -8388608 ≤ v) : -8388608 ≤ round20 v ∧ round20 v ≤ 8388607 := by
  rcases le_or_gt 0 v with nonneg | neg
  · rw [round20_of_nonneg nonneg]
    omega
  · rw [round20_of_neg neg]
    omega

theorem is20_iff (s : State) (x : Dest) :
    is20 s x = true ↔ ∃ q : OutQuad, q.val = x.val / 4 ∧ s.active.modes.get q = .embed20 := by
  unfold is20 destQuad?
  by_cases feed : x.val / 4 < 32
  · rw [dif_pos feed]
    dsimp only
    rw [beq_iff_eq]
    constructor
    · exact fun mode => ⟨_, rfl, mode⟩
    · rintro ⟨q, place, mode⟩
      rwa [show (⟨x.val / 4, feed⟩ : OutQuad) = q from Fin.ext place.symm]
  · rw [dif_neg feed]
    refine ⟨nofun, ?_⟩
    rintro ⟨q, place, -⟩
    exact absurd (place ▸ q.isLt) feed

theorem mixValue_eq (s : State) (x : Dest) : mixValue s x =
    if is20 s x then round20 (saturate (preSaturation s x)) else saturate (preSaturation s x) := rfl

theorem preSaturation_of_none {s : State} {x : Dest} (h : s.ramps.get x = none) :
    preSaturation s x = scaledValue s (destDomain x) (s.active.entries.get x) := by
  unfold preSaturation
  rw [h]

theorem preSaturation_of_ramp {s : State} {x : Dest} {r : Ramp} (h : s.ramps.get x = some r) :
    preSaturation s x = blend (scaledValue s (destDomain x) r.old)
      (scaledValue s (destDomain x) (s.active.entries.get x)) r.length r.progress := by
  unfold preSaturation
  rw [h]

/-! ## The entry (R124) -/

theorem wideValue_of_none {e : Entry} (h : e.source = none) (s : State) (d : Domain) : wideValue s d e = 0 := by
  unfold wideValue
  rw [h]

theorem wideValue_of_source {e : Entry} {src : Source} (h : e.source = some src) (s : State) (d : Domain) :
    wideValue s d e = polarity e.invert (fetch s d e.delay src) * e.gain.toNat +
      e.partner.elim 0 fun p => polarity p.invert (fetch s d e.delay p.source) * p.gain.toNat := by
  unfold wideValue
  rw [h]
  cases e.partner <;> rfl

/-- Settles O32: each step from the record to the emitted value has its lemma above. -/
theorem destinationArithmetic : Obligations.DestinationArithmetic := by
  unfold Obligations.DestinationArithmetic
  refine ⟨fun s r d => ?record, fun s d delay src => ?read,
    ⟨fun a b pos => ?division, fun s d e => ?entry, fun old new k n pos => ⟨rfl, blend_zero old new pos⟩⟩,
    fun s x => ⟨preSaturation_of_none, fun r => preSaturation_of_ramp, is20_iff s x, rfl⟩,
    fun s x => ?value, fun v low high => ?step⟩
  case record =>
    have named : ∀ i, (s.tpt.get i).holds (r, d) = true ↔
        (s.tpt.get i).state ≠ .free ∧ (s.tpt.get i).ring = r ∧ (s.tpt.get i).domain = d := fun i => by
      rw [TakePoint.holds_iff, Prod.ext_iff]
    dsimp only
    simp only [← named]
    refine ⟨recordOf?_eq_none_iff s (r, d), fun tp => recordOf?_eq_some, fun distinct i => ?_⟩
    exact recordOf?_of_holds ((pairsDistinct_iff s.tpt).1 distinct)
  case read =>
    refine ⟨fun none => fetch_of_none none delay, fun tp record => ?_⟩
    rw [fetch_of_record record]
    unfold setRead
    refine ⟨fun halts => ?_, fun early => ?_, fun running reaches => ?_⟩
    · rw [if_neg fun h => halts h.1]
      rfl
    · rw [if_neg fun h => absurd h.2 (by omega)]
      rfl
    · rw [if_pos ⟨running, reaches⟩]
      cases (s.rings.get tp.ring).read (tp.take - delay) <;> rfl
  case division =>
    refine ⟨roundDiv_nearest a pos, roundDiv_neg a pos, fun nonneg => ?_⟩
    have := roundDiv_of_nonneg nonneg pos
    omega
  case entry =>
    refine ⟨fun none => wideValue_of_none none s d, fun src source alone => ?_, fun src p source partner => ?_, rfl⟩
    · rw [wideValue_of_source source, alone]
      exact add_zero _
    · rw [wideValue_of_source source, partner]
      rfl
  case value =>
    obtain ⟨low, high⟩ := saturate_range (preSaturation s x)
    rw [mixValue_eq]
    cases is20 s x with
    | true =>
      obtain ⟨low', high'⟩ := round20_range low
      refine ⟨low', high', fun _ => ?_, nofun⟩
      rw [if_pos rfl]
      unfold round20
      omega
    | false => exact ⟨low, high, nofun, fun _ => rfl⟩
  case step =>
    rcases lt_trichotomy v 0 with neg | rfl | above
    · have mirrored := round20_of_nonneg (v := -v) (by omega)
      rw [round20_of_neg neg, mirrored]
      omega
    · decide
    · rw [round20_of_nonneg above.le]
      have mirrored := round20_of_neg (v := -v) (by omega)
      rw [mirrored]
      omega

end Machine
end Sys2Proof
end

section
/-! PROOF. O34: the Check Mixer's choice, its comparison and SET MIXER CHECK (R143 to R146). -/

namespace Sys2Proof
namespace Machine

/-! ## The choice (R144) -/

theorem domainDests_sorted (d : Domain) : (domainDests d).Pairwise (· ≤ ·) := by
  unfold domainDests
  refine List.pairwise_map.2 ((List.sortedLT_finRange 16).pairwise.imp fun {a b} lt => ?_)
  rw [Fin.le_def]
  simp only [domainDest]
  omega

/-- The destinations of a domain in ascending order. -/
theorem filter_destDomain_eq (d : Domain) : ((List.finRange 144).filter fun x => destDomain x = d) = domainDests d :=
  (filter_destDomain d).eq_of_pairwise' (((List.sortedLT_finRange 144).pairwise.imp fun lt => lt.le).filter _)
    (domainDests_sorted d)

theorem inUseOf_eq (s : State) (d : Domain) :
    inUseOf s d = (List.finRange 144).filter fun x => destDomain x = d ∧ inUseIn s.active x = true := by
  have e : inUseOf s d = (domainDests d).filter fun x => inUseIn s.active x := rfl
  rw [e, ← filter_destDomain_eq, List.filter_filter]
  refine List.filter_congr fun x _ => ?_
  rw [Bool.decide_and, Bool.decide_eq_true, Bool.and_comm]

theorem chosenRound_of_above {s : State} {d : Domain} {r : Round} {x : Dest} {rest : List Dest}
    (h : ((inUseOf s d).filter fun x => r.cursor ≤ x.val) = x :: rest) :
    chosenRound s d r = ⟨x.val + 1, r.count, some x, false, false⟩ := by
  unfold chosenRound
  rw [← List.head?_filter, h]
  rfl

theorem chosenRound_of_none_above {s : State} {d : Domain} {r : Round}
    (h : ((inUseOf s d).filter fun x => r.cursor ≤ x.val) = []) :
    chosenRound s d r = (inUseOf s d).head?.elim ⟨r.cursor, r.count, none, false, false⟩
      fun x => ⟨x.val + 1, r.count + 1, some x, false, false⟩ := by
  unfold chosenRound
  rw [← List.head?_filter, h]
  dsimp only [List.head?_nil]
  cases (inUseOf s d).head? <;> rfl

theorem chooseChecked_round {d : Domain} {s : State} (fresh : (s.cm.rounds.get d).fresh = true) :
    (chooseChecked d s).cm.rounds.get d = chosenRound s d (s.cm.rounds.get d) := by
  unfold chooseChecked
  rw [if_pos (by exact fresh)]
  exact Table.get_set_same _ _ _

/-! ## The comparison (R145) -/

theorem compareChecked_of_none {d : Domain} {s : State} (h : (s.cm.rounds.get d).checked = none) (value : Dest → Int) :
    compareChecked d value s = s := by
  unfold compareChecked
  dsimp only
  rw [h]

theorem compareChecked_of_checked {d : Domain} {s : State} {x : Dest} (h : (s.cm.rounds.get d).checked = some x)
    (value : Dest → Int) : compareChecked d value s =
      if checkValue s x ≠ value x ∧ (s.cm.rounds.get d).mismatch = false then
        report .mixerMismatch (.destination x) (s.setRound d { s.cm.rounds.get d with mismatch := true })
      else s := by
  unfold compareChecked
  dsimp only
  rw [h]

/-- The values that an emission of domain d hands to the comparison, by destination. -/
def handedValue (d : Domain) (s : State) (x : Dest) : Int :=
  (emittedValues s d).get ⟨x.val % 16, Nat.mod_lt _ (by decide)⟩

theorem domainDest_mod {d : Domain} {x : Dest} (on : destDomain x = d) :
    domainDest d ⟨x.val % 16, Nat.mod_lt _ (by decide)⟩ = x := by
  subst on
  ext
  simp only [domainDest, destDomain]
  omega

theorem handedValue_of_carried {d : Domain} {s : State} {x : Dest} (on : destDomain x = d)
    (carried : carriedIn s.active x = true) : handedValue d s x = mixValue s x := by
  unfold handedValue emittedValues
  rw [Table.get_tab, domainDest_mod on, if_pos carried]

theorem emission_log (d : Domain) (s : State) : (emission d s).log =
    (compareChecked d (handedValue d (chooseChecked d (underruns d s))) (chooseChecked d (underruns d s))).log := by
  rw [emission_eq, (frame_emitTo _ d _).log rfl, (frame_advanceRamps _ d).log rfl, (frame_advanceTakes _ d).log rfl,
    emissionRead, (frame_markClips _ d).log rfl]
  rfl

theorem emission_cm_eq (d : Domain) (s : State) : (emission d s).cm =
    (compareChecked d (handedValue d (chooseChecked d (underruns d s))) (chooseChecked d (underruns d s))).cm := by
  rw [emission_cm, emissionRead, (frame_markClips _ d).cm rfl]
  rfl

/-! ## SET MIXER CHECK (R146) -/

/-- The Check Mixer becomes c. -/
def setCheckMixer (c : CheckMixer) (s : State) : State := { s with cm := c }

theorem besideMgmt_setCheckMixer (c : CheckMixer) : BesideMgmt (setCheckMixer c) := fun _ _ => rfl

theorem mixerCheckWords_eq (c : CheckMixer) : mixerCheckWords c =
    flagWord c.inject :: (List.finRange 9).flatMap fun d => [(c.rounds.get d).count, numWord (c.rounds.get d).cursor] := by
  unfold mixerCheckWords
  rw [Table.cells_eq_map_get, List.flatMap_map]

theorem actSetMixerCheck_of_empty (s : State) : actSetMixerCheck [] s = .answered .done (mixerCheckWords s.cm) s := rfl

theorem actSetMixerCheck_of_flag (on : Bool) (s : State) : actSetMixerCheck [flagWord on] s =
    .answered .done (mixerCheckWords ⟨s.cm.rounds, on⟩) (setCheckMixer ⟨s.cm.rounds, on⟩ s) := by
  unfold actSetMixerCheck
  dsimp only
  rw [flag?_flagWord]
  rfl

theorem actSetMixerCheck_of_range {w : Word} (h : 2 ≤ w.toNat) (s : State) : actSetMixerCheck [w] s = refusedArgument s := by
  unfold actSetMixerCheck
  dsimp only
  rw [flag?_none h]

theorem actSetMixerCheck_of_count {args : List Word} (h : 2 ≤ args.length) (s : State) :
    actSetMixerCheck args s = refusedArgument s := by
  match args with
  | [] => simp at h
  | [_] => simp at h
  | _ :: _ :: _ => rfl

theorem exec_setMixerCheck (tag : Byte) (args : List Word) (s : State) :
    exec (.setMixerCheck tag args) s = .next (manageRow 41 tag args s) := rfl

theorem judging_cm_of_awake {s : State} (h : s.awake = true) (c : Command) : (s.judging c).cm = s.cm := by
  obtain ⟨m, judged⟩ := judging_of_awake h c
  rw [judged]
  rfl

section
variable {s : State} (ready : s.ready = true) (tag : Byte)
include ready

theorem exec_setMixerCheck_of_empty : exec (.setMixerCheck tag []) s =
    .next ((restartTimer s).answering tag 41 .done (mixerCheckWords s.cm)) := by
  rw [exec_setMixerCheck, manageRow_answers (r := .setMixerCheck) _ BesideMgmt.id ready (by simp) rfl]
  rw [act, actSetMixerCheck_of_empty, judging_cm_of_awake (awake_of_ready ready)]

theorem exec_setMixerCheck_of_flag (on : Bool) : exec (.setMixerCheck tag [flagWord on]) s =
    .next ((setCheckMixer ⟨s.cm.rounds, on⟩ (restartTimer s)).answering tag 41 .done (mixerCheckWords ⟨s.cm.rounds, on⟩)) := by
  rw [exec_setMixerCheck, manageRow_answers (r := .setMixerCheck) _ (besideMgmt_setCheckMixer ⟨s.cm.rounds, on⟩) ready
    (length_singleton_le_maxArgs _) rfl]
  rw [act, actSetMixerCheck_of_flag, judging_cm_of_awake (awake_of_ready ready)]

end

/-- Settles O34: choice, comparison and command each follow from their equations above. -/
theorem mixerCheckChoosesAndReports : Obligations.MixerCheckChoosesAndReports := by
  unfold Obligations.MixerCheckChoosesAndReports
  refine ⟨fun d s fresh => ?choice, fun d value s => ⟨fun none => compareChecked_of_none none value, fun x checked => ?compare⟩,
    fun d s => ?emission, fun tag s ready => ?command⟩
  case choice =>
    dsimp only
    rw [chooseChecked_round fresh, ← inUseOf_eq]
    cases above : (inUseOf s d).filter fun x => (s.cm.rounds.get d).cursor ≤ x.val with
    | cons x rest => exact chosenRound_of_above above
    | nil =>
      rw [chosenRound_of_none_above above]
      cases inUseOf s d <;> rfl
  case compare =>
    dsimp only
    rw [compareChecked_of_checked checked]
    refine ⟨fun same => if_neg fun h => ?_, fun differs once => if_pos ⟨differs, once⟩⟩
    rcases same with same | told
    · exact h.1 same
    · rw [told] at h
      exact Bool.noConfusion h.2
  case emission =>
    have active : (chooseChecked d (underruns d s)).active = s.active :=
      ((frame_chooseChecked _ d).active rfl).trans ((frame_underruns s d).active rfl)
    refine ⟨handedValue d (chooseChecked d (underruns d s)), fun x on carried => handedValue_of_carried on ?_,
      emission_cm_eq d s, emission_log d s⟩
    rw [active]
    exact carried
  case command =>
    dsimp only
    refine ⟨?_, fun on => ?_, fun args most count => ?_, fun w range => ?_⟩
    · rw [exec_setMixerCheck_of_empty ready, mixerCheckWords_eq]
    · rw [exec_setMixerCheck_of_flag ready, mixerCheckWords_eq]
      rfl
    · exact row_refused .setMixerCheck tag most (actSetMixerCheck_of_count count) ready
    · exact row_refused .setMixerCheck tag (length_singleton_le_maxArgs w) (actSetMixerCheck_of_range range) ready

end Machine
end Sys2Proof
end

section
/-! PROOF. O35: the Path Checker, from its command to its answer (R147 to R152). -/

namespace Sys2Proof
namespace Machine

/-! ## Words -/

theorem pathTotals_eq (p : PathChecker) :
    pathTotals p = p.quads.cells.map fun q => if q.checked then numWord q.sets else 0 := by
  unfold pathTotals
  refine List.map_congr_left fun q _ => ?_
  split <;> rfl

theorem pathTotals_of_none {p : PathChecker} (h : ∀ q, (p.quads.get q).checked = false) :
    pathTotals p = List.replicate 4 0 := by
  rw [pathTotals_eq]
  refine List.eq_replicate_iff.2 ⟨by rw [List.length_map, p.quads.size], fun w mem => ?_⟩
  obtain ⟨t, quad, rfl⟩ := List.mem_map.1 mem
  obtain ⟨q, rfl⟩ := (p.quads.mem_cells_iff t).1 quad
  rw [h q]
  rfl

theorem abortWords_of_checking {p : PathChecker} (h : p.state = .checking) : abortWords p =
    [numWord p.feed.val, numWord p.phase, numWord p.total] ++ List.replicate 16 1 ++ pathTotals p := if_pos h

theorem abortWords_of_not {p : PathChecker} (h : p.state ≠ .checking) : abortWords p =
    [numWord p.feed.val, 255, 0] ++ List.replicate 16 1 ++ List.replicate 4 0 := if_neg h

theorem pathWords_length (p : PathChecker) : (pathWords p).length = 23 := by
  simp [pathWords, pathTotals, p.quads.size]

theorem pathWords_take (p : PathChecker) : (pathWords p).take 3 = [numWord p.feed.val, numWord p.phase, numWord p.total] := rfl

theorem pathWords_track (p : PathChecker) (t : Fin 16) (w : Word) : (pathWords p).getD (3 + t.val) w = trackResult p t := by
  unfold pathWords
  rw [List.append_assoc, List.getD_append_right _ _ _ _ (by simp), List.getD_append _ _ _ _ (by simp)]
  simp

theorem pathWords_total (p : PathChecker) (q : Quad) (w : Word) :
    (pathWords p).getD (19 + q.val) w = if (p.quads.get q).checked then numWord (p.quads.get q).sets else 0 := by
  unfold pathWords
  rw [List.getD_append_right _ _ _ _ (by simp), pathTotals_eq, Table.cells_eq_map_get, List.map_map]
  simp

theorem trackResult_eq (p : PathChecker) (t : Fin 16) : trackResult p t =
    if (p.quads.get ⟨t.val / 4, by omega⟩).checked = false then 2
    else if (p.quads.get ⟨t.val / 4, by omega⟩).fail = true ∨ p.tracks.get t = true then 1 else 0 := by
  unfold trackResult
  simp only [Bool.not_eq_true', Bool.or_eq_true]

/-! ## Boundaries and stops (R148, R151, R152) -/

theorem pathCheckStop_of_not {f : Feed} {s : State} (h : s.pc.state = .idle ∨ s.pc.feed ≠ f) : pathCheckStop f s = s :=
  if_neg fun both => h.elim both.1 fun off => off both.2

theorem pathCheckStop_of_busy {f : Feed} {s : State} (busy : s.pc.state ≠ .idle) (on : s.pc.feed = f) :
    pathCheckStop f s = abortPathCheck s := if_pos ⟨busy, on⟩

theorem pathCheckBoundary_of_waiting {f : Feed} {fm : Format} {s : State} (on : s.pc.feed = f)
    (detected : (s.fr.get f).detected = some fm) (waiting : s.pc.state = .waiting) :
    pathCheckBoundary f s = s.setPc ⟨.checking, f, (s.fmt.get f).phase, frameSets fm (s.fmt.get f).phase, false,
      Table.fill 4 Tally.clear, Table.fill 16 false⟩ := by
  unfold pathCheckBoundary
  rw [if_pos on, waiting]
  dsimp only
  rw [detected]

/-- The Path Checker with its checked quads closed against the frame's total (R151). -/
def PathChecker.closed (p : PathChecker) : PathChecker := { p with quads := p.quads.map fun q => q.closed p.total }

theorem pathCheckBoundary_of_checking {f : Feed} {s : State} (on : s.pc.feed = f) (checking : s.pc.state = .checking) :
    pathCheckBoundary f s = answerCommand .done (pathWords s.pc.closed) (s.setPc { s.pc.closed with state := .idle }) := by
  unfold pathCheckBoundary
  rw [if_pos on, checking]
  rfl

theorem closed_get (p : PathChecker) (q : Quad) : p.closed.quads.get q = (p.quads.get q).closed p.total := Table.get_map _ _ _

theorem Tally.closed_fail_iff (q : Tally) (total : Nat) :
    (q.closed total).fail = true ↔ q.fail = true ∨ (q.checked = true ∧ q.sets ≠ total) := by
  unfold Tally.closed
  simp only [Bool.or_eq_true, Bool.and_eq_true, bne_iff_ne]

/-! ## An output line of the checked frame (R149, R150) -/

/-- The tally of a quad as the first carrying line takes it up: marked checked where its mode in force embeds (R149). -/
def markedTally (s : State) (f : Feed) (q : Quad) : Tally :=
  if s.pc.marked then s.pc.quads.get q else { s.pc.quads.get q with
    checked := embeds (s.active.modes.get (outQuad f q))
    fail := embeds (s.active.modes.get (outQuad f q)) && (s.pc.quads.get q).noted }

/-- The Path Checker on a carrying line, before the line is examined (R149). -/
def markedPc (s : State) (f : Feed) : PathChecker :=
  { s.pc with marked := true, quads := Table.tab 4 (markedTally s f) }

theorem marked_eq (f : Feed) (s : State) : (if s.pc.marked then s else markQuads f s) = s.setPc (markedPc s f) := by
  unfold markedPc markedTally
  by_cases marked : s.pc.marked = true
  · rw [if_pos marked]
    have quads : (Table.tab 4 fun q => if s.pc.marked = true then s.pc.quads.get q else { s.pc.quads.get q with
        checked := embeds (s.active.modes.get (outQuad f q))
        fail := embeds (s.active.modes.get (outQuad f q)) && (s.pc.quads.get q).noted }) = s.pc.quads :=
      Table.ext_get fun q => by rw [Table.get_tab, if_pos marked]
    rw [quads, ← marked]
    rfl
  · rw [if_neg marked]
    simp only [if_neg marked]
    rfl

theorem pathCheckLine_of_quiet {f : Feed} {line : Nat} {s : State} (checking : s.pc.state = .checking) (on : s.pc.feed = f)
    (quiet : line ≤ 2) (slots : Table 4 (Option Packet)) : pathCheckLine f line slots s = noteQuiet slots s := by
  unfold pathCheckLine
  rw [if_pos ⟨checking, on⟩, if_pos quiet]

theorem pathCheckLine_of_carrying {f : Feed} {line : Nat} {s : State} (checking : s.pc.state = .checking) (on : s.pc.feed = f)
    (carrying : 2 < line) (slots : Table 4 (Option Packet)) : pathCheckLine f line slots s =
      let s1 := s.setPc (markedPc s f)
      if (markedPc s f).quads.cells.any fun t => t.checked then
        match (s.fr.get f).detected with
        | some fm => if line ≤ linesOf fm then examineSlots f line slots s1 else s1
        | none => s1
      else abortPathCheck s1 := by
  unfold pathCheckLine
  rw [if_pos ⟨checking, on⟩, if_neg (not_le.2 carrying), marked_eq]
  rfl

theorem any_checked_iff (s : State) (f : Feed) :
    ((markedPc s f).quads.cells.any fun t => t.checked) = true ↔ ∃ q, (markedTally s f q).checked = true := by
  rw [List.any_eq_true]
  constructor
  · rintro ⟨t, mem, checked⟩
    obtain ⟨q, rfl⟩ := (Table.mem_cells_iff _ t).1 mem
    rw [markedPc, Table.get_tab] at checked
    exact ⟨q, checked⟩
  · rintro ⟨q, checked⟩
    exact ⟨_, (Table.mem_cells_iff _ _).2 ⟨q, Table.get_tab _ q⟩, checked⟩

theorem pathCheckLine_of_none_checked {f : Feed} {line : Nat} {s : State} (checking : s.pc.state = .checking)
    (on : s.pc.feed = f) (carrying : 2 < line) (none : ∀ q, (markedTally s f q).checked = false)
    (slots : Table 4 (Option Packet)) : pathCheckLine f line slots s = abortPathCheck (s.setPc (markedPc s f)) := by
  rw [pathCheckLine_of_carrying checking on carrying]
  refine if_neg fun any => ?_
  obtain ⟨q, checked⟩ := (any_checked_iff s f).1 any
  rw [none q] at checked
  cases checked

theorem pathCheckLine_of_checked {f : Feed} {line : Nat} {fm : Format} {s : State} (checking : s.pc.state = .checking)
    (on : s.pc.feed = f) (carrying : 2 < line) (within : line ≤ linesOf fm) (detected : (s.fr.get f).detected = some fm)
    (any : ∃ q, (markedTally s f q).checked = true) (slots : Table 4 (Option Packet)) :
    pathCheckLine f line slots s = examineSlots f line slots (s.setPc (markedPc s f)) := by
  rw [pathCheckLine_of_carrying checking on carrying]
  dsimp only
  rw [if_pos ((any_checked_iff s f).2 any), detected]
  exact if_pos within

/-- The Path Checker after an examined line with n sets (R149, R150). -/
def examinedPc (s : State) (f : Feed) (n : Nat) (slots : Table 4 (Option Packet)) : PathChecker :=
  { markedPc s f with
    quads := Table.tab 4 fun q => if (markedTally s f q).checked then tallied s f q n (slots.get q) (markedTally s f q)
      else markedTally s f q
    tracks := Table.tab 16 fun t => s.pc.tracks.get t || ((markedTally s f ⟨t.val / 4, by omega⟩).checked &&
      sampleDiffers s f ⟨t.val / 4, by omega⟩ (slots.get ⟨t.val / 4, by omega⟩) ⟨t.val % 4, Nat.mod_lt _ (by decide)⟩) }

theorem examineSlots_marked {f : Feed} {fm : Format} {s : State} (detected : (s.fr.get f).detected = some fm) (line : Nat)
    (slots : Table 4 (Option Packet)) : examineSlots f line slots (s.setPc (markedPc s f)) =
      s.setPc (examinedPc s f (setsOnFrameLine fm s.pc.phase line) slots) := by
  have same : ((s.setPc (markedPc s f)).fr.get f).detected = some fm := detected
  unfold examineSlots examinedPc
  rw [same]
  simp only [State.setPc_fields, markedPc, Table.get_tab]
  rfl

theorem packetAsAsked_iff (s : State) (f : Feed) (q : Quad) (n : Nat) (t : Tally) (k : Packet) :
    packetAsAsked s f q n t k = true ↔ k.checksum = checksumOf k.header k.content ∧
      k.header = makeHeader 1 q.val (1 + 6 * k.soundHead.setCount.toNat) ∧ k.soundHead.setCount.toNat = n ∧
      k.soundHead.phase.toNat = s.pc.phase ∧ (k.soundHead.first = true ↔ t.lastCount = none) ∧
      (∀ c, t.lastCount = some c → k.soundHead.count = c + 1) ∧
      (k.soundHead.wide = true ↔ s.active.modes.get (outQuad f q) = .embed24) ∧
      ∀ i, k.soundHead.active.get i = (s.active.entries.get (quadDest (outQuad f q) i)).source.isSome := by
  have flags : k.soundHead.active = activeFlags s.active (outQuad f q) ↔
      ∀ i, k.soundHead.active.get i = (s.active.entries.get (quadDest (outQuad f q) i)).source.isSome := by
    constructor
    · intro h i
      rw [h, activeFlags, Table.get_tab]
    · exact fun h => Table.ext_get fun i => by rw [h, activeFlags, Table.get_tab]
  have first : (k.soundHead.first == t.lastCount.isNone) = true ↔ (k.soundHead.first = true ↔ t.lastCount = none) := by
    rw [beq_iff_eq, Bool.eq_iff_iff, Option.isNone_iff_eq_none]
  have wide : (k.soundHead.wide == (s.active.modes.get (outQuad f q) == .embed24)) = true ↔
      (k.soundHead.wide = true ↔ s.active.modes.get (outQuad f q) = .embed24) := by
    rw [beq_iff_eq, Bool.eq_iff_iff, beq_iff_eq]
  unfold packetAsAsked
  simp only [Bool.and_eq_true, first, wide, beq_iff_eq, good_iff, flags, and_assoc]
  cases t.lastCount with
  | none => simp
  | some c => simp

theorem tallied_fail_iff (s : State) (f : Feed) (q : Quad) (n : Nat) (t : Tally) (k : Packet) :
    (tallied s f q n (some k) t).fail = true ↔ t.fail = true ∨ n = 0 ∨ ¬packetAsAsked s f q n t k = true := by
  unfold tallied
  simp only [Bool.or_eq_true, beq_iff_eq, Bool.not_eq_true', Bool.not_eq_true, or_assoc]

theorem sampleDiffers_iff (s : State) (f : Feed) (q : Quad) (slot : Option Packet) (i : Fin 4) :
    sampleDiffers s f q slot i = true ↔ ∃ k, slot = some k ∧ k.soundHead.setCount.toNat = (s.fmt.get f).sets.length ∧
      (k.soundSets.map fun x => x.samples.get i) ≠ (s.fmt.get f).sets.map fun v => v.get (quadTrack q i) := by
  cases slot with
  | none => exact ⟨nofun, nofun⟩
  | some k =>
    unfold sampleDiffers
    simp only [Bool.and_eq_true, beq_iff_eq, bne_iff_ne]
    constructor
    · exact fun h => ⟨k, rfl, h⟩
    · rintro ⟨k', same, h⟩
      obtain rfl := Option.some.inj same
      exact h

theorem quadTrack_quad (q : Quad) (i : Fin 4) : (⟨(quadTrack q i).val / 4, by omega⟩ : Quad) = q ∧
    (⟨(quadTrack q i).val % 4, Nat.mod_lt _ (by decide)⟩ : Fin 4) = i := by
  constructor <;> ext <;> simp only [quadTrack] <;> omega

theorem examinedPc_track (s : State) (f : Feed) (n : Nat) (slots : Table 4 (Option Packet)) (q : Quad) (i : Fin 4) :
    (examinedPc s f n slots).tracks.get (quadTrack q i) =
      (s.pc.tracks.get (quadTrack q i) || ((markedTally s f q).checked && sampleDiffers s f q (slots.get q) i)) := by
  obtain ⟨quad, place⟩ := quadTrack_quad q i
  unfold examinedPc
  dsimp only
  rw [Table.get_tab, quad, place]

theorem examinedPc_quad (s : State) (f : Feed) (n : Nat) (slots : Table 4 (Option Packet)) (q : Quad) :
    (examinedPc s f n slots).quads.get q = if (markedTally s f q).checked then
      tallied s f q n (slots.get q) (markedTally s f q) else markedTally s f q := Table.get_tab _ _

/-! ## START PATH CHECK (R148, R152) -/

theorem exec_startPathCheck (tag : Byte) (args : List Word) (s : State) :
    exec (.startPathCheck tag args) s = .next (manageRow 40 tag args s) := rfl

theorem actStartPathCheck_of_running {f : Feed} {s : State} (h : domainRunning s (feedDomain f) = true) :
    actStartPathCheck [numWord f.val] s = .inFlight (s.setPc { PathChecker.start with feed := f, state := .waiting }) := by
  unfold actStartPathCheck
  dsimp only
  rw [index?_numWord 8 (by decide) f]
  exact if_pos h

theorem actStartPathCheck_of_stopped {f : Feed} {s : State} (h : domainRunning s (feedDomain f) = false) :
    actStartPathCheck [numWord f.val] s = .answered .aborted
      ([numWord f.val, 255, 0] ++ List.replicate 16 1 ++ List.replicate 4 0) (s.setPc { PathChecker.start with feed := f }) := by
  unfold actStartPathCheck
  dsimp only
  rw [index?_numWord 8 (by decide) f]
  dsimp only
  rw [h, if_neg Bool.false_ne_true, abortWords_of_not (p := { PathChecker.start with feed := f }) nofun]

theorem actStartPathCheck_of_range {w : Word} (h : 8 ≤ w.toNat) (s : State) : actStartPathCheck [w] s = refusedArgument s := by
  unfold actStartPathCheck
  dsimp only
  rw [index?_none h]

theorem actStartPathCheck_of_count {args : List Word} (h : args.length ≠ 1) (s : State) :
    actStartPathCheck args s = refusedArgument s := by
  unfold actStartPathCheck
  split
  · simp at h
  · rfl

theorem besideMgmt_setPc (p : PathChecker) : BesideMgmt (·.setPc p) := fun _ _ => rfl

theorem domainRunning_judging {s : State} (h : s.awake = true) (c : Command) (d : Domain) :
    domainRunning (s.judging c) d = domainRunning s d := by
  obtain ⟨m, judged⟩ := judging_of_awake h c
  rw [judged]
  exact domainRunning_congr rfl d

/-- Settles O35: a line, a stop, the command and a boundary, each by the equations above. -/
theorem pathCheckRunsOneFrame : Obligations.PathCheckRunsOneFrame := by
  unfold Obligations.PathCheckRunsOneFrame
  refine ⟨fun f line slots s => ?line, fun f s => ?stop, fun tag f s ready => ?start, fun f fm s on detected => ?boundary⟩
  case line =>
    refine ⟨fun not => pathCheckLine_of_not not line slots, fun checking on => ⟨fun quiet => ?_, fun carrying none => ?_,
      fun fm carrying within detected any => ?_⟩⟩
    · exact pathCheckLine_of_quiet checking on quiet slots
    · refine ⟨{ markedPc s f with state := .idle }, rfl, ?_⟩
      have totals : pathTotals (markedPc s f) = List.replicate 4 0 := pathTotals_of_none fun q => by
        rw [markedPc, Table.get_tab]
        exact none q
      have words : abortWords (markedPc s f) = [numWord f.val, numWord s.pc.phase, numWord s.pc.total] ++
          List.replicate 16 1 ++ List.replicate 4 0 := by
        rw [abortWords_of_checking (p := markedPc s f) checking, totals]
        simp only [markedPc, on]
      rw [← words]
      exact pathCheckLine_of_none_checked checking on carrying none slots
    · have quad := examinedPc_quad s f (setsOnFrameLine fm s.pc.phase line) slots
      refine ⟨examinedPc s f (setsOnFrameLine fm s.pc.phase line) slots, ?_, checking, rfl, fun q out => ?_,
        fun q checked empty => ?_, fun q k checked full => ⟨?_, ?_, ?_, ?_, ?_⟩, fun q i => ?_⟩
      · rw [pathCheckLine_of_checked checking on carrying within detected any, examineSlots_marked detected]
      · exact (quad q).trans (if_neg (by rw [← Bool.not_eq_true] at out; exact out))
      · rw [quad, if_pos (by exact checked), empty]
        rfl
      · rw [quad, if_pos (by exact checked), full]
        exact checked
      · rw [quad, if_pos (by exact checked), full, tallied_fail_iff, packetAsAsked_iff]
        rfl
      · rw [quad, if_pos (by exact checked), full]
        rfl
      · rw [quad, if_pos (by exact checked), full]
        rfl
      · rw [quad, if_pos (by exact checked), full]
        rfl
      · rw [examinedPc_track, Bool.or_eq_true, Bool.and_eq_true, sampleDiffers_iff]
        rfl
  case stop =>
    refine ⟨pathCheckStop_of_not, ?_, ?_⟩
    · rintro rfl waiting
      dsimp only
      rw [pathCheckStop_of_busy (by rw [waiting]; nofun) rfl, abortPathCheck, abortWords_of_not (by rw [waiting]; nofun)]
    · rintro rfl checking
      dsimp only
      rw [pathCheckStop_of_busy (by rw [checking]; nofun) rfl, abortPathCheck, abortWords_of_checking checking, pathTotals_eq]
  case start =>
    have awake := awake_of_ready ready
    refine ⟨fun running => ?_, fun stopped => ?_, fun w range => ?_⟩
    · dsimp only
      rw [exec_startPathCheck, manageRow_of_noneWaits (r := .startPathCheck) ready (length_singleton_le_maxArgs _) rfl
        (actStartPathCheck_of_running (by rw [domainRunning_judging awake]; exact running))]
      rfl
    · dsimp only
      rw [exec_startPathCheck, manageRow_answers (r := .startPathCheck) _ (besideMgmt_setPc _) ready
        (length_singleton_le_maxArgs _) rfl
        (actStartPathCheck_of_stopped (by rw [domainRunning_judging awake]; exact stopped))]
    · exact row_refused .startPathCheck tag (length_singleton_le_maxArgs w) (actStartPathCheck_of_range range) ready
  case boundary =>
    refine ⟨pathCheckBoundary_of_waiting on detected, fun checking => ⟨{ s.pc.closed with state := .idle },
      pathWords s.pc.closed, pathCheckBoundary_of_checking on checking, rfl, pathWords_length _, ?_, fun t => ?_, fun q => ?_⟩⟩
    · rw [← on]
      exact pathWords_take _
    · dsimp only
      have fails := Tally.closed_fail_iff (s.pc.quads.get ⟨t.val / 4, by omega⟩) s.pc.total
      rw [pathWords_track, pathWords_track, trackResult_eq, closed_get]
      have kept : ((s.pc.quads.get ⟨t.val / 4, by omega⟩).closed s.pc.total).checked =
        (s.pc.quads.get ⟨t.val / 4, by omega⟩).checked := rfl
      have tracks : s.pc.closed.tracks = s.pc.tracks := rfl
      rw [kept, tracks]
      refine ⟨fun out => if_pos out, fun checked failed => ?_, fun checked passed clear => ?_⟩
      · rw [if_neg (by rw [checked]; nofun), if_pos ?_]
        exact failed.imp_left fun h => fails.2 (h.imp_right fun h => ⟨checked, h⟩)
      · rw [if_neg (by rw [checked]; nofun), if_neg ?_]
        rintro (fail | differs)
        · exact passed ((fails.1 fail).imp_right And.right)
        · rw [clear] at differs
          cases differs
    · rw [pathWords_total, closed_get]
      rfl

end Machine
end Sys2Proof
end

section
/-! PROOF. O50: codes that stand in no row of the table, and word counts that a row does not take (R164, R166). -/

namespace Sys2Proof
namespace Machine

/-- A code that stands in no row of the table has none (R166). -/
theorem codeRow?_eq_none {code : Byte} (h : code ∉ tableCodes) : codeRow? code = none := by
  have all : ∀ code : Byte, codeRow? code = none ∨ code ∈ tableCodes := by decide
  exact (all code).resolve_right h

/-- A command whose code stands in no row is answered at once (R164). -/
theorem manageRow_unknown {code : Byte} (unknown : code ∉ tableCodes) (tag : Byte) {args : List Word}
    (count : args.length ≤ Config.maxArgs) {s : State} (ready : s.ready = true) :
    manageRow code tag args s = (restartTimer s).answering tag code .unknownCommand [] := by
  rw [manageRow, feedEvent_of_awake _ s (awake_of_ready ready), manage, if_pos count, acceptCommand_of_ready _ s ready,
    codeRow?_eq_none unknown]
  dsimp only
  have answered := answerCommand_judging BesideMgmt.id ready ⟨tag, code, args⟩ .unknownCommand []
  rw [answered]
  exact finish_of_queue_empty _ (restarted_fields ready).1

theorem actSetFeed_of_count {args : List Word} (h : args.length ≠ 4) (s : State) : actSetFeed args s = refusedArgument s := by
  unfold actSetFeed
  split
  · simp at h
  · rfl

theorem actSetControl_of_count {args : List Word} (h : args.length ≠ 4) (s : State) :
    actSetControl args s = refusedArgument s := by
  unfold actSetControl
  split
  · simp at h
  · rfl

theorem actReadDevice_of_count {args : List Word} (h : args.length ≠ 0) (s : State) :
    actReadDevice args s = refusedArgument s := by
  unfold actReadDevice
  split
  · simp at h
  · rfl

theorem actResetDevice_of_count {args : List Word} (h : args.length ≠ 0) (s : State) :
    actResetDevice args s = refusedArgument s := by
  unfold actResetDevice
  split
  · simp at h
  · rfl

theorem ne_nil_of_count {args : List Word} (h : args.length ≠ 0) : args ≠ [] := fun e => h (e ▸ rfl)

/-- Settles O50: an unknown code is answered so, and every row refuses the counts it does not take by its act. -/
theorem codesAndWordCountsJudged : Obligations.CodesAndWordCountsJudged := by
  unfold Obligations.CodesAndWordCountsJudged
  refine ⟨fun code tag args s ready most unknown => congrArg _ (manageRow_unknown unknown tag most ready),
    fun tag args s ready most => ?_⟩
  have refused : ∀ r : CommandRow, (∀ x, act r args x = refusedArgument x) → _ := fun r acts => row_refused r tag most acts ready
  refine ⟨fun n => ⟨refused .setFeed (actSetFeed_of_count n), refused .setControl (actSetControl_of_count n)⟩,
    fun n => ⟨refused .readFeed (actReadFeed_of_count n), refused .setReference (actSetReference_of_count n),
      refused .commit (actCommit_of_count n), refused .disarmCue (actDisarmCue_of_count n),
      refused .startPathCheck (actStartPathCheck_of_count n), refused .clearFaults (actClearFaults_of_count n),
      refused .storeFailsafe (actStoreFailsafe_of_count n)⟩,
    fun n => refused .flush (actFlush_of_none (flushTarget?_count_none n)),
    fun n => ⟨refused .readTakePoints (actReadTakePoints_of_count n), refused .writeQuadMode (actWriteQuadMode_of_count n),
      refused .readQuadModes (actReadQuadModes_of_count n)⟩,
    fun n => refused .writeEntry (actWriteEntry_of_count n),
    fun n => ⟨refused .copyBank (actCopyBank_of_count n), refused .readEntry (actReadEntry_of_count n),
      refused .readFaults (actReadFaults_of_count n)⟩,
    fun n => refused .setGuard (actSetGuard_of_count n),
    fun n => ⟨refused .readGuards (actReadGuards_of_nonempty (ne_nil_of_count n)),
      refused .readCues (actReadCues_of_nonempty (ne_nil_of_count n)), refused .readDevice (actReadDevice_of_count n),
      refused .resetDevice (actResetDevice_of_count n)⟩,
    fun n => refused .armCue (actArmCue_of_count n),
    fun none n => refused .setPresence (actSetPresence_of_count none n),
    fun n => ⟨refused .setMixerCheck (actSetMixerCheck_of_count n), refused .setNotices (actSetNotices_of_count n)⟩⟩

end Machine
end Sys2Proof
end

section
/-! PROOF. O51: the queue's limit, the CX's way through it, and the CLEAR packet (R163 to R168). -/

namespace Sys2Proof
namespace Machine

/-! ## The queue -/

theorem offerCommand_of_room {s : State} (h : s.mgmt.queue.length + s.mgmt.answers.length < 32) (c : Command) :
    offerCommand c s = s.setMgmt { s.mgmt with queue := s.mgmt.queue ++ [c] } := if_pos h

theorem offerCommand_of_full {s : State} (h : 32 ≤ s.mgmt.queue.length + s.mgmt.answers.length) (c : Command) :
    offerCommand c s = report .queueOverrun (managementSource s) s := if_neg (by exact not_lt.2 h)

theorem offerCommand_cx (c : Command) (s : State) : (offerCommand c s).mgmt.cx = s.mgmt.cx := by
  unfold offerCommand
  split
  · rfl
  · rw [report_mgmt]

theorem restartTimer_cx {s : State} (h : s.awake = true) : (restartTimer s).mgmt.cx = s.mgmt.cx := by
  rw [restartTimer_of_awake s h]
  rfl

/-- A management row while the CX is busy: the command is offered, and nothing is taken (R163, R164). -/
theorem exec_of_busy {i : Instr} {k : Command} {s : State} (command : commandOf? i = some k) (most : k.args.length ≤ 29)
    (awake : s.awake = true) (busy : s.mgmt.cx ≠ .idle) : exec i s = .next (offerCommand k (restartTimer s)) := by
  have still : (offerCommand k (restartTimer s)).mgmt.cx ≠ .idle := by rwa [offerCommand_cx, restartTimer_cx awake]
  rw [exec_of_commandOf command, manageRow, feedEvent_of_awake _ s awake, manage, if_pos (by exact most), acceptCommand,
    finish_of_busy _ still, finish_of_busy _ still]

theorem cxRun_of_empty {s : State} (h : s.mgmt.queue = []) (n : Nat) : cxRun n s = s := by
  cases n with
  | zero => rfl
  | succ n =>
    unfold cxRun
    rw [h]
    exact ite_self _

theorem cxRun_succ {s : State} {c : Command} {rest : List Command} (idle : s.mgmt.cx = .idle) (queue : s.mgmt.queue = c :: rest)
    (n : Nat) : cxRun (n + 1) s = cxRun n (takeCommand c s) := by
  rw [cxRun, if_pos idle, queue]

/-! ## A command taken alone -/

/-- The CX takes no command of this state: it is busy, or the queue is empty (R164). -/
def TakesNone (s : State) : Prop := s.mgmt.cx = .idle → s.mgmt.queue = []

theorem TakesNone.finish {s : State} (h : TakesNone s) : finish s = s := by
  by_cases idle : s.mgmt.cx = .idle
  · exact finish_of_queue_empty s (h idle)
  · exact finish_of_busy s idle

theorem takesNone_of_noneWaits {s : State} (h : s.noneWaits = true) : TakesNone s := fun idle => by
  unfold State.noneWaits at h
  rw [idle] at h
  exact List.isEmpty_iff.1 h

theorem takesNone_answered {s : State} (h : s.noneWaits = true) (v : Verdict) (words : List Word) :
    TakesNone (Act.answered v words s).run := takesNone_of_noneWaits (noneWaits_answered v words s h)

theorem noneWaits_takeExpiry : LeavesNoneWaiting takeExpiry := fun s h => by
  refine keeps_ite (P := fun t => t.noneWaits = true) ?_ h
  unfold expireSilence
  have stopped : (report .controlSilence (managementSource s)
      (s.setMgmt { s.mgmt with timerRunning := false, remaining := 0 })).noneWaits = true :=
    noneWaits_of_told (s := s.setMgmt { s.mgmt with timerRunning := false, remaining := 0 }) h (told_report _ _ _)
  dsimp only
  split
  · exact stopped
  · exact noneWaits_requestCommit .failsafe _ stopped

theorem noneWaits_restartTimer : LeavesNoneWaiting restartTimer := fun s h => by
  have taken := noneWaits_takeExpiry s h
  unfold restartTimer
  dsimp only
  split <;> exact taken

theorem noneWaits_leaveLocked (f : Feed) : LeavesNoneWaiting (leaveLocked f) := fun s h =>
  noneWaits_of_frame h (frame_leaveLocked s f)

theorem noneWaits_toWrongFormat (f : Feed) : LeavesNoneWaiting (toWrongFormat f) := fun s h =>
  noneWaits_of_told (noneWaits_of_frame h (frame_setFr s f _)) (told_report _ _ _)

theorem noneWaits_setFeedTo (f : Feed) (enable : Bool) (expected : Option Format) (settle : Nat) :
    LeavesNoneWaiting (setFeedTo f enable expected settle) := fun s h => by
  have changed : ∀ (u : State) (r : Receiver), u.noneWaits = true → (u.setFr f r).noneWaits = true := fun u r hu =>
    noneWaits_of_frame hu (frame_setFr u f r)
  unfold setFeedTo
  dsimp only
  generalize stored : s.setFr f { s.fr.get f with enabled := enable, expected := expected, settleFrames := settle } = u
  have hu : u.noneWaits = true := stored ▸ changed s _ h
  refine keeps_ite (P := fun t => t.noneWaits = true) ?_ ?_
  · unfold enableFeed
    dsimp only
    split
    · exact changed _ _ hu
    · exact hu
    · exact keeps_ite (P := fun t => t.noneWaits = true) (changed _ _ hu) (noneWaits_toWrongFormat f _ hu)
    · exact keeps_ite (P := fun t => t.noneWaits = true) hu (noneWaits_leaveLocked f _ (noneWaits_toWrongFormat f _ hu))
    · exact keeps_ite (P := fun t => t.noneWaits = true) (changed _ _ hu) hu
  · unfold disableFeed
    dsimp only
    split
    · exact hu
    · exact changed _ _ hu
    · exact noneWaits_stopDomain f _ (changed _ _ hu)
    · exact noneWaits_stopDomain f _ (changed _ _ hu)
    · exact noneWaits_stopDomain f _ (noneWaits_leaveLocked f _ (changed _ _ hu))

/-- When a command in flight alone has been acted on, the CX takes no other (R164, R172). -/
theorem act_takesNone (r : CommandRow) (args : List Word) {s : State} (h : s.noneWaits = true) :
    TakesNone (act r args s).run := by
  have refused : TakesNone (refusedArgument s).run := takesNone_answered h _ _
  by_cases plain : r.plain
  · obtain ⟨v, words, u, e, keeps⟩ := act_answersFrom plain args s
    rw [e]
    exact takesNone_answered (noneWaits_of_told h keeps.mgmt) v words
  · cases r
    case setFeed =>
      dsimp only [act]
      unfold actSetFeed
      split
      · split
        · split
          · exact refused
          · exact takesNone_answered (noneWaits_setFeedTo _ _ _ _ s h) _ _
        · exact refused
      · exact refused
    case setControl =>
      dsimp only [act]
      unfold actSetControl
      split
      · split
        · split
          · exact refused
          · exact takesNone_answered (noneWaits_restartTimer _ (by exact noneWaits_takeExpiry s h)) _ _
        · exact refused
      · exact refused
    case commit =>
      dsimp only [act]
      unfold actCommit
      split
      · split
        · exact takesNone_of_noneWaits (noneWaits_requestCommit _ s h)
        · exact refused
      · exact refused
    case startPathCheck =>
      dsimp only [act]
      unfold actStartPathCheck
      split
      · split
        · dsimp only
          split
          · exact takesNone_of_noneWaits (noneWaits_of_frame h (frame_setPc s _))
          · exact takesNone_answered (noneWaits_of_frame h (frame_setPc s _)) _ _
        · exact refused
      · exact refused
    case resetDevice =>
      dsimp only [act]
      unfold actResetDevice
      split
      · exact nofun
      · exact refused
    all_goals exact absurd ⟨nofun, nofun, nofun, nofun, nofun⟩ plain

theorem takeCommand_takesNone (c : Command) {s : State} (h : (execute s).noneWaits = true) : TakesNone (takeCommand c s) := by
  unfold takeCommand
  split
  · exact takesNone_of_noneWaits (noneWaits_answered _ _ _ h)
  · exact act_takesNone _ _ h

/-- A management row of a ready part: the command is taken at once (R163, R164). -/
theorem exec_of_ready {i : Instr} {k : Command} {s : State} (command : commandOf? i = some k) (most : k.args.length ≤ 29)
    (ready : s.ready = true) :
    exec i s = .next (takeCommand k ((restartTimer s).setMgmt { (restartTimer s).mgmt with queue := [k] })) := by
  have awake := awake_of_ready ready
  obtain ⟨queue, cx, -⟩ := restarted_fields ready
  have room : (restartTimer s).mgmt.queue.length + (restartTimer s).mgmt.answers.length < 32 := by
    have answers := ((idleExecutor_iff s).1 ((ready_iff s).1 ready).2.1).2.2.2
    have same : (restartTimer s).mgmt.answers = s.mgmt.answers := by
      rw [restartTimer_of_awake s awake]
      rfl
    rw [queue, same, List.length_nil, Nat.zero_add]
    exact answers
  have offered : offerCommand k (restartTimer s) = (restartTimer s).setMgmt { (restartTimer s).mgmt with queue := [k] } := by
    rw [offerCommand_of_room room, queue]
    rfl
  have none : TakesNone (takeCommand k ((restartTimer s).setMgmt { (restartTimer s).mgmt with queue := [k] })) :=
    takeCommand_takesNone k rfl
  rw [exec_of_commandOf command, manageRow, feedEvent_of_awake _ s awake, manage, if_pos (by exact most), acceptCommand, offered]
  have taken : finish ((restartTimer s).setMgmt { (restartTimer s).mgmt with queue := [k] }) =
      takeCommand k ((restartTimer s).setMgmt { (restartTimer s).mgmt with queue := [k] }) :=
    cxRun_succ (s := (restartTimer s).setMgmt { (restartTimer s).mgmt with queue := [k] }) cx rfl 0
  rw [taken, none.finish]

/-! ## The CLEAR packet (R167) -/

theorem clearPacket_of_awake {s : State} (awake : s.awake = true) : clearPacket s = s.setMgmt { s.mgmt with
    queue := if s.mgmt.cx = .idle then [] else s.mgmt.queue.take 1
    discard := if s.mgmt.cx = .idle then s.mgmt.discard else true
    notice := none, answers := []
    timerRunning := (restartTimer s).mgmt.timerRunning, remaining := (restartTimer s).mgmt.remaining } := by
  have cleared : clearPacket s = (restartTimer s).setMgmt (restartTimer s).mgmt.cleared := rfl
  rw [cleared, restartTimer_of_awake s awake]
  by_cases idle : s.mgmt.cx = .idle
  · rw [cleared_of_idle (by exact idle), if_pos idle, if_pos idle]
    rfl
  · rw [cleared_of_busy (by exact idle), if_neg idle, if_neg idle]
    rfl

/-- Settles O51: a command is offered, taken or cleared by the equations above. -/
theorem queueLimitAndClearPacket : Obligations.QueueLimitAndClearPacket := by
  unfold Obligations.QueueLimitAndClearPacket
  refine ⟨⟨fun c s => ⟨fun room => offerCommand_of_room room c, fun full => offerCommand_of_full full c⟩,
      fun i k s command most awake busy => exec_of_busy command most awake busy⟩,
    fun s => ⟨rfl, fun n => ⟨fun none => ?halts, fun c rest idle queue => cxRun_succ idle queue n⟩⟩,
    fun i k s command most ready => exec_of_ready command most ready,
    fun v words c rest s queue kept => answerCommand_of_head queue kept v words,
    fun s awake => ⟨clearPacket_of_awake awake, fun v words c rest queue discard => answerCommand_of_discarded queue discard v words⟩⟩
  case halts =>
    rcases none with busy | empty
    · exact cxRun_of_busy n s busy
    · exact cxRun_of_empty empty n

end Machine
end Sys2Proof
end

section
/-! PROOF. O52: SET CONTROL and the silence timer (R96, R168 to R170). -/

namespace Sys2Proof
namespace Machine

theorem rateOf_pos : ∀ fm : Format, 0 < rateOf fm := by decide

/-- Management with its silence timer restarted at this nominal rate (R168). -/
def Management.restarted (m : Management) (rate : Nat) : Management :=
  { m with timerRunning := decide (m.silenceTime ≠ .off), remaining := silenceSeconds m.silenceTime * rate }

theorem restartTimer_eq {s : State} (h : silenceDue s = false) : restartTimer s = s.setMgmt (s.mgmt.restarted (rateOf s.ru.format)) := by
  unfold restartTimer takeExpiry
  rw [h, if_neg Bool.false_ne_true]
  dsimp only
  cases time : s.mgmt.silenceTime <;> simp [Management.restarted, time, silenceSeconds]

theorem silenceDue_of_awake {s : State} (h : s.awake = true) : silenceDue s = false := by
  simp only [State.awake, Bool.and_eq_true, Bool.not_eq_true'] at h
  exact h.2

/-- A timer just restarted is not due: its count is positive where it runs (R168). -/
theorem silenceDue_of_restarted {s : State} {m : Management} {rate : Nat} (pos : 0 < rate)
    (h : (s.mgmt.timerRunning, s.mgmt.remaining) = ((m.restarted rate).timerRunning, (m.restarted rate).remaining)) :
    silenceDue s = false := by
  obtain ⟨running, remaining⟩ := Prod.ext_iff.1 h
  dsimp only at running remaining
  unfold silenceDue
  rw [running, remaining, Management.restarted]
  cases m.silenceTime <;> simp [silenceSeconds, pos.ne']

theorem silenceDue_judging {s : State} (awake : s.awake = true) (c : Command) : silenceDue (s.judging c) = false := by
  have restarted := restartTimer_eq (silenceDue_of_awake awake)
  refine silenceDue_of_restarted (m := s.mgmt) (rateOf_pos s.ru.format) ?_
  unfold State.judging
  rw [restarted]
  rfl

/-! ## SET CONTROL (R170) -/

/-- Management with the four control settings (R162). -/
def Management.controlled (m : Management) (control answer : Feed) (time : SilenceTime) (action : SilenceAction) : Management :=
  { m with controlFeed := control, answerFeed := answer, silenceTime := time, silenceAction := action }

/-- The argument words of SET CONTROL for these settings (R170). -/
def controlArgs (control answer : Feed) (time : SilenceTime) (action : SilenceAction) : List Word :=
  [numWord control.val, numWord answer.val, silenceTimeCode time, silenceActionCode action]

theorem four_le_maxArgs : 4 ≤ Config.maxArgs := by decide

theorem length_controlArgs_le (control answer : Feed) (time : SilenceTime) (action : SilenceAction) :
    (controlArgs control answer time action).length ≤ Config.maxArgs := four_le_maxArgs

section
variable (control answer : Feed) (time : SilenceTime) (action : SilenceAction)

theorem actSetControl_of_off {s : State} (off : (s.fr.get control).state = .off) :
    actSetControl (controlArgs control answer time action) s = refusedArgument s := by
  unfold actSetControl controlArgs
  dsimp only
  rw [index?_numWord 8 (by decide) control, index?_numWord 8 (by decide) answer, silenceTimeArg?_code, silenceActionArg?_code]
  exact if_pos off

theorem actSetControl_of_on {s : State} (on : (s.fr.get control).state ≠ .off) (notDue : silenceDue s = false) :
    let s1 := restartTimer (s.setMgmt (s.mgmt.controlled control answer time action))
    actSetControl (controlArgs control answer time action) s = .answered .done (controlWords s1.mgmt) s1 := by
  unfold actSetControl controlArgs takeExpiry
  dsimp only
  rw [index?_numWord 8 (by decide) control, index?_numWord 8 (by decide) answer, silenceTimeArg?_code, silenceActionArg?_code]
  dsimp only
  rw [if_neg on, notDue]
  rfl

theorem actSetControl_of_range {a b c d : Word} (h : 8 ≤ a.toNat ∨ 8 ≤ b.toNat ∨ 4 ≤ c.toNat ∨ 2 ≤ d.toNat) (s : State) :
    actSetControl [a, b, c, d] s = refusedArgument s := by
  unfold actSetControl
  dsimp only
  split
  · rename_i control answer time action first second third fourth
    rcases h with h | h | h | h
    · rw [index?_none h] at first
      cases first
    · rw [index?_none h] at second
      cases second
    · rw [silenceTimeArg?_none h] at third
      cases third
    · rw [silenceActionArg?_none h] at fourth
      cases fourth
  · rfl

/-- An accepted SET CONTROL: the settings, the timer restarted with them, and the answer (R168, R170). -/
theorem manageRow_setControl {s : State} (ready : s.ready = true) (tag : Byte) (on : (s.fr.get control).state ≠ .off) :
    manageRow 56 tag (controlArgs control answer time action) s =
      (restartTimer (s.setMgmt (s.mgmt.controlled control answer time action))).answering tag 56 .done
        (controlArgs control answer time action) := by
  have awake := awake_of_ready ready
  obtain ⟨idle, queue, discard, -⟩ := (idleExecutor_iff s).1 ((ready_iff s).1 ready).2.1
  have notDue := silenceDue_judging awake ⟨tag, 56, controlArgs control answer time action⟩
  have restarted := restartTimer_eq (silenceDue_of_awake awake)
  have judged : s.judging ⟨tag, 56, controlArgs control answer time action⟩ = s.setMgmt
      { s.mgmt.restarted (rateOf s.ru.format) with
        queue := [⟨tag, 56, controlArgs control answer time action⟩], cx := .executing } := by
    unfold State.judging
    rw [restarted]
    rfl
  have fr : (s.judging ⟨tag, 56, controlArgs control answer time action⟩).fr = s.fr := by
    rw [judged]
    rfl
  have acts := actSetControl_of_on control answer time action (s := s.judging ⟨tag, 56, controlArgs control answer time action⟩)
    (by rw [fr]; exact on) notDue
  rw [restartTimer_eq (s := (s.judging ⟨tag, 56, controlArgs control answer time action⟩).setMgmt
    ((s.judging ⟨tag, 56, controlArgs control answer time action⟩).mgmt.controlled control answer time action)) notDue] at acts
  rw [manageRow_of_answered (code := 56) (args := controlArgs control answer time action) (tag := tag) (r := .setControl)
      ready (length_controlArgs_le control answer time action) rfl (by exact acts) rfl (by rw [judged]; exact discard),
    restartTimer_eq (s := s.setMgmt (s.mgmt.controlled control answer time action)) (silenceDue_of_awake awake), judged]
  simp only [State.answering, State.setMgmt_fields, setMgmt_setMgmt, Management.restarted, Management.controlled,
    idle, queue, discard]
  rfl

end

/-! ## The expiry (R96, R169) -/

/-- The part when its silence timer has expired, before its silence action (R169). -/
def silenceExpired (s : State) : State :=
  report .controlSilence (.management s.mgmt.controlFeed) (s.setMgmt { s.mgmt with timerRunning := false, remaining := 0 })

theorem expireSilence_of_hold {s : State} (h : s.mgmt.silenceAction = .hold) : expireSilence s = silenceExpired s := by
  have split : expireSilence s = match s.mgmt.silenceAction with
    | .hold => silenceExpired s
    | .failsafe => requestCommit .failsafe (silenceExpired s) := by
    unfold expireSilence
    cases s.mgmt.silenceAction <;> rfl
  rw [split, h]

theorem expireSilence_of_failsafe {s : State} (h : s.mgmt.silenceAction = .failsafe) :
    expireSilence s = requestCommit .failsafe (silenceExpired s) := by
  have split : expireSilence s = match s.mgmt.silenceAction with
    | .hold => silenceExpired s
    | .failsafe => requestCommit .failsafe (silenceExpired s) := by
    unfold expireSilence
    cases s.mgmt.silenceAction <;> rfl
  rw [split, h]

/-- A failsafe request: validated at once, absorbed by one that waits, or put at the end of the waiting order (R96). -/
theorem requestCommit_failsafe (s : State) : requestCommit .failsafe s =
    if s.ce.inFlight = none then validate .failsafe s
    else if .failsafe ∈ s.ce.waiting then s
    else s.setCe { s.ce with waiting := s.ce.waiting ++ [.failsafe] } := by
  by_cases idle : s.ce.inFlight = none
  · rw [if_pos idle, requestCommit_of_idle idle]
  · unfold requestCommit
    rw [if_neg idle, if_neg (by rw [Option.isNone_iff_eq_none]; exact idle)]
    simp only [true_and]

theorem requestCommit_failsafe_sameExecutor (s : State) : SameExecutor s (requestCommit .failsafe s) := by
  rw [requestCommit_failsafe]
  split
  · exact validate_sameExecutor rfl s
  · split
    · exact SameExecutor.refl s
    · exact SameExecutor.of_frame (frame_setCe s _)

theorem expireSilence_sameExecutor (s : State) : SameExecutor s (expireSilence s) := by
  have told : SameExecutor s (silenceExpired s) :=
    (⟨rfl, rfl, rfl, rfl⟩ : SameExecutor s (s.setMgmt { s.mgmt with timerRunning := false, remaining := 0 })).trans
      (SameExecutor.of_told (told_report _ _ _))
  cases action : s.mgmt.silenceAction with
  | hold =>
    rw [expireSilence_of_hold action]
    exact told
  | failsafe =>
    rw [expireSilence_of_failsafe action]
    exact told.trans (requestCommit_failsafe_sameExecutor _)

theorem takesNone_of_same {s t : State} (h : TakesNone s) (k : SameExecutor s t) : TakesNone t := fun idle => by
  rw [k.queue]
  exact h (k.cx ▸ idle)

theorem exec_controlSilence {s : State} (powered : s.pins.powered = true) (noStart : s.pins.startUpDue = false)
    (due : silenceDue s = true) (none : TakesNone s) : exec .controlSilence s = .next (expireSilence s) := by
  have row : exec .controlSilence s = .next (event id s) := rfl
  have settled : settle s = expireSilence s := by
    unfold settle takeExpiry
    rw [noStart, due]
    rfl
  rw [row, event, if_pos powered, id_eq, settled, (takesNone_of_same none (expireSilence_sameExecutor s)).finish]

/-- Settles O52: the command, the restart, the count and the expiry, each by its equation above. -/
theorem setControlAndSilenceTimer : Obligations.SetControlAndSilenceTimer := by
  unfold Obligations.SetControlAndSilenceTimer
  refine ⟨⟨rfl, rfl⟩, fun tag control answer time action s ready => ⟨fun off => ?off, fun on => ?on, fun a b c d h => ?range⟩,
    fun s awake => ?restart, fun carried lines s => ⟨fun running => if_pos running, fun stopped => ?stopped⟩,
    fun s powered noStart running zero rests => ?expiry⟩
  case off =>
    obtain ⟨m, judged⟩ := judging_of_awake (awake_of_ready ready) ⟨tag, 56, controlArgs control answer time action⟩
    have acts := actSetControl_of_off control answer time action
      (s := s.judging ⟨tag, 56, controlArgs control answer time action⟩) (by rw [judged]; exact off)
    have few := length_controlArgs_le control answer time action
    have answered := manageRow_answers (code := 56) (r := .setControl) (tag := tag)
      (args := controlArgs control answer time action) _ BesideMgmt.id ready few rfl (by exact acts)
    exact congrArg _ answered
  case on => exact congrArg _ (manageRow_setControl control answer time action ready tag on)
  case range =>
    exact row_refused .setControl (args := [a, b, c, d]) tag four_le_maxArgs (actSetControl_of_range h) ready
  case restart =>
    rw [restartTimer_of_awake s awake]
    cases s.mgmt.silenceTime <;> rfl
  case stopped => exact if_neg (by rw [stopped]; exact Bool.false_ne_true)
  case expiry =>
    have none : TakesNone s := fun idle => rests.resolve_right fun busy => busy idle
    have due : silenceDue s = true := by
      unfold silenceDue
      rw [running, zero]
      rfl
    have ce : (silenceExpired s).ce = s.ce := (frame_report _ _ _).ce rfl
    rw [exec_controlSilence powered noStart due none]
    change _ = Host.Outcome.next (match s.mgmt.silenceAction with | .hold => silenceExpired s | .failsafe => _)
    cases action : s.mgmt.silenceAction with
    | hold => rw [expireSilence_of_hold action]
    | failsafe =>
      rw [expireSilence_of_failsafe action, requestCommit_failsafe, ce]
      rfl

end Machine
end Sys2Proof
end

section
/-! PROOF. What the entry of an FR into LOCKED and its leaving do to the rings, the take points, the watched tracks and the quads (R6, R7, R23, R45, R52, R53, R139). -/

namespace Sys2Proof
namespace Machine

/-! ## Records moved with their rings -/

theorem movedOn_of_on {tp : TakePoint} {r : RingNo} (on : tp.ring = r ∧ tp.state ≠ .free) (st : TpState) :
    tp.movedOn r st = { tp with state := st } := if_pos on

theorem movedOn_of_off {tp : TakePoint} {r : RingNo} (off : ¬(tp.ring = r ∧ tp.state ≠ .free)) (st : TpState) :
    tp.movedOn r st = tp := if_neg off

/-- A walk that moves the records of one ring after another moves those of them all. -/
theorem walk_movedOn {α : Type} {g : α → State → State} {ring : α → RingNo} {st : TpState}
    (moves : ∀ a s i, (g a s).tpt.get i = (s.tpt.get i).movedOn (ring a) st) (l : List α) (s : State) (i : RecordNo) :
    (walk l g s).tpt.get i = if (s.tpt.get i).ring ∈ l.map ring ∧ (s.tpt.get i).state ≠ .free then
      { s.tpt.get i with state := st } else s.tpt.get i := by
  induction l generalizing s with
  | nil => rw [walk_nil, if_neg fun h => List.not_mem_nil h.1]
  | cons a l ih =>
    rw [walk_cons, ih, moves]
    by_cases on : (s.tpt.get i).ring = ring a ∧ (s.tpt.get i).state ≠ .free
    · obtain ⟨same, notFree⟩ := on
      rw [movedOn_of_on ⟨same, notFree⟩, if_pos (c := _ ∈ List.map ring (a :: l) ∧ _) ⟨by rw [same]; exact List.mem_cons_self, notFree⟩]
      exact ite_self _
    · have iff : ((s.tpt.get i).ring ∈ (a :: l).map ring ∧ (s.tpt.get i).state ≠ .free) ↔
          (s.tpt.get i).ring ∈ l.map ring ∧ (s.tpt.get i).state ≠ .free := by
        rw [List.map_cons, List.mem_cons]
        tauto
      rw [movedOn_of_off on]
      exact if_congr iff.symm rfl rfl

/-- The four rings of a feed. -/
theorem mem_feedRings (f : Feed) (r : RingNo) : r ∈ (List.finRange 4).map (feedRing f) ↔ r.val / 4 = f.val := by
  simp only [List.mem_map, List.mem_finRange, true_and]
  constructor
  · rintro ⟨q, rfl⟩
    simp only [feedRing]
    omega
  · intro on
    exact ⟨⟨r.val % 4, Nat.mod_lt _ (by decide)⟩, Fin.ext (by simp only [feedRing]; omega)⟩

theorem trackRing_feed (f : Feed) (w : TrackNo) : (trackRing w).val / 4 = f.val ↔ w.val / 16 = f.val := by
  simp only [trackRing]
  omega

/-- The records that a feed's entry into LOCKED or its leaving moves: those of its rings that are not FREE. -/
theorem walk_movedOn_feed {g : Quad → State → State} {st : TpState} (f : Feed)
    (moves : ∀ q s i, (g q s).tpt.get i = (s.tpt.get i).movedOn (feedRing f q) st) (s : State) (i : RecordNo) :
    (walk (List.finRange 4) g s).tpt.get i = if (s.tpt.get i).ring.val / 4 = f.val ∧ (s.tpt.get i).state ≠ .free then
      { s.tpt.get i with state := st } else s.tpt.get i := by
  rw [walk_movedOn moves]
  exact if_congr (and_congr_left' (mem_feedRings f _)) rfl rfl

/-! ## Entering LOCKED -/

theorem resetRing_rings_get (r r' : RingNo) (s : State) :
    (resetRing r s).rings.get r' = if r' = r then Ring.empty else s.rings.get r' := by
  split
  case isTrue same => rw [same, resetRing_rings_same]
  case isFalse other => exact resetRing_rings_other _ _ other

theorem walk_resetRing_rings {α : Type} (ring : α → RingNo) (l : List α) (s : State) (r : RingNo) :
    (walk l (fun a => resetRing (ring a)) s).rings.get r = if r ∈ l.map ring then Ring.empty else s.rings.get r := by
  induction l generalizing s with
  | nil => rw [walk_nil, List.map_nil, if_neg List.not_mem_nil]
  | cons a l ih =>
    rw [walk_cons, ih, resetRing_rings_get, List.map_cons]
    simp only [List.mem_cons]
    by_cases here : r = ring a
    · rw [if_pos here, ite_self, if_pos (Or.inl here)]
    · rw [if_neg here]
      exact if_congr (or_iff_right here).symm rfl rfl

theorem walk_resetRing_tracks {α : Type} (ring : α → RingNo) (l : List α) (s : State) (w : TrackNo) :
    (walk l (fun a => resetRing (ring a)) s).watch.tracks.get w =
      if trackRing w ∈ l.map ring then WatchedTrack.start else s.watch.tracks.get w := by
  induction l generalizing s with
  | nil => rw [walk_nil, List.map_nil, if_neg List.not_mem_nil]
  | cons a l ih =>
    rw [walk_cons, ih, resetRing_tracks, List.map_cons]
    simp only [List.mem_cons]
    by_cases here : trackRing w = ring a
    · rw [if_pos here, ite_self, if_pos (Or.inl here)]
    · rw [if_neg here]
      exact if_congr (or_iff_right here).symm rfl rfl

section
variable (f : Feed) (s : State)

theorem enterLocked_fr (g : Feed) : (enterLocked f s).fr.get g = if f = g then
    { s.fr.get f with state := .locked, quads := (s.fr.get f).quads.map QuadTrack.entered } else s.fr.get g := by
  have frame := Frame.walk (fun q s => frame_resetRing s (feedRing f q)) (List.finRange 4)
    (s.setFr f { s.fr.get f with state := .locked, quads := (s.fr.get f).quads.map QuadTrack.entered })
  exact (congrArg (·.get g) (frame.fr rfl)).trans (setFr_get _ _ _ _)

theorem enterLocked_rings (r : RingNo) :
    (enterLocked f s).rings.get r = if r.val / 4 = f.val then ⟨0, []⟩ else s.rings.get r :=
  (walk_resetRing_rings (feedRing f) _ _ r).trans (if_congr (mem_feedRings f r) rfl rfl)

theorem enterLocked_tracks (w : TrackNo) :
    (enterLocked f s).watch.tracks.get w = if w.val / 16 = f.val then ⟨.unknown, 0, 0⟩ else s.watch.tracks.get w :=
  (walk_resetRing_tracks (feedRing f) _ _ w).trans
    (if_congr ((mem_feedRings f _).trans (trackRing_feed f w)) rfl rfl)

theorem enterLocked_tpt (i : RecordNo) : (enterLocked f s).tpt.get i =
    if (s.tpt.get i).ring.val / 4 = f.val ∧ (s.tpt.get i).state ≠ .free then { s.tpt.get i with state := .filling }
    else s.tpt.get i :=
  walk_movedOn_feed f (fun _ _ _ => resetRing_tpt _ _ _) _ i

/-- The entry into LOCKED from a state t that keeps what s has of the rings and of the feed's take points. -/
theorem enteredLocked_of {s t u : State} {f : Feed} (rings : u.rings = s.rings)
    (fr : t.fr = (enterLocked f u).fr) (ringsKept : t.rings = (enterLocked f u).rings)
    (tracks : t.watch.tracks = (enterLocked f u).watch.tracks)
    (records : s.ce.inFlight = none ∨ s.ce.waiting = [] → ∀ i, (s.tpt.get i).state ≠ .free →
      (s.tpt.get i).ring.val / 4 = f.val →
      (t.tpt.get i).state = .filling ∨ (s.ce.inFlight ≠ none ∧ (t.tpt.get i).state = .free)) : EnteredLocked f s t := by
  refine ⟨fun r => ?_, fun q => ?_, fun w on => ?_, records⟩
  · rw [ringsKept, enterLocked_rings, rings]
  · rw [fr, enterLocked_fr, if_pos rfl]
    dsimp only
    rw [Table.get_map]
    exact ⟨rfl, rfl, rfl, rfl⟩
  · rw [tracks, enterLocked_tracks, if_pos on]

end

/-! ## Leaving LOCKED -/

section
variable (f : Feed) (s : State)

theorem leaveLocked_tracks (w : TrackNo) :
    (leaveLocked f s).watch.tracks.get w = if w.val / 16 = f.val then ⟨.unknown, 0, 0⟩ else s.watch.tracks.get w := by
  have frame := Frame.walk (fun q s => frame_starveRing s (feedRing f q)) (List.finRange 4) s
  refine (Table.get_tab _ _).trans ?_
  rw [frame.watch rfl]
  rfl

theorem leaveLocked_tpt (i : RecordNo) : (leaveLocked f s).tpt.get i =
    if (s.tpt.get i).ring.val / 4 = f.val ∧ (s.tpt.get i).state ≠ .free then { s.tpt.get i with state := .starved }
    else s.tpt.get i :=
  walk_movedOn_feed f (fun _ _ _ => Table.get_map _ _ _) s i

end

end Machine
end Sys2Proof
end

section
/-! PROOF. O17: the frame boundaries of an FR that does not run: OFF, the first whole frame, and SEEKING (R3, R5, R6, R15, R23, R40, R45, R52, R68, R111, R139). -/

namespace Sys2Proof
namespace Machine

/-! ## The branches of a frame boundary (R3, R5) -/

theorem exec_frameBoundary_of_quiet {s : State} (quiet : s.quiet = true) (f : Feed) (period : Time) (order : List Part) :
    exec (.frameBoundary f period order) s = .next (frameMark f period order s) :=
  congrArg Host.Outcome.next (feedEvent_of_quiet (noneWaits_frameMark f period order) quiet)

section
variable {f : Feed} {period : Time} {order : List Part} {s : State}

theorem frameMark_of_off (off : (s.fr.get f).state = .off) : frameMark f period order s = s := if_pos off

theorem frameMark_of_first (on : (s.fr.get f).state ≠ .off) (first : (s.fr.get f).frameOpen = false) :
    frameMark f period order s = s.setFr f { s.fr.get f with lineCount := 1, frameOpen := true } := by
  refine (if_neg on).trans ?_
  dsimp only
  rw [first]
  rfl

/-- The state in which a whole frame closes: the boundary has counted line 1 of the next (R3; log entry 2). -/
def marked (f : Feed) (s : State) : State := s.setFr f { s.fr.get f with lineCount := 1 }

theorem marked_fr (g : Feed) :
    (marked f s).fr.get g = if f = g then { s.fr.get f with lineCount := 1 } else s.fr.get g := setFr_get _ _ _ _

theorem Receiver.counting_of_open {r : Receiver} (opened : r.frameOpen = true) :
    { r with lineCount := 1, frameOpen := true } = { r with lineCount := 1 } := by rw [← opened]

theorem frameMark_of_open (on : (s.fr.get f).state ≠ .off) (opened : (s.fr.get f).frameOpen = true) :
    frameMark f period order s = closeFrame f (matchFormat (s.fr.get f).lineCount period) order (marked f s) := by
  refine (if_neg on).trans ?_
  rw [opened, Receiver.counting_of_open opened]
  rfl

theorem closeFrame_of_seeking (seeking : (s.fr.get f).state = .seeking) (m : Option Format) :
    closeFrame f m order s = countDue f (seekBoundary f m s) := by
  unfold closeFrame
  dsimp only
  rw [seeking]
  rfl

theorem frameMark_of_seeking (seeking : (s.fr.get f).state = .seeking) (opened : (s.fr.get f).frameOpen = true) :
    frameMark f period order s =
      countDue f (seekBoundary f (matchFormat (s.fr.get f).lineCount period) (marked f s)) := by
  rw [frameMark_of_open (by rw [seeking]; nofun) opened, closeFrame_of_seeking (by rw [marked_fr, if_pos rfl]; exact seeking)]

end

section
variable {f : Feed} {s : State}

/-- The candidate of an FR in SEEKING moves (R5). -/
theorem marked_candidate (c : Option Format) : (marked f s).setFr f { (marked f s).fr.get f with candidate := c } =
    s.setFr f { s.fr.get f with lineCount := 1, candidate := c } := by
  rw [marked_fr, if_pos rfl]
  exact setFr_setFr _ _ _ _

theorem seekBoundary_none : seekBoundary f none (marked f s) =
    s.setFr f { s.fr.get f with lineCount := 1, candidate := none } := marked_candidate none

theorem seekBoundary_of_new {fm : Format} (new : (s.fr.get f).candidate ≠ some fm) : seekBoundary f (some fm) (marked f s) =
    s.setFr f { s.fr.get f with lineCount := 1, candidate := some fm } := by
  refine (if_neg ?_).trans (marked_candidate (some fm))
  rw [marked_fr, if_pos rfl]
  exact new

theorem seekBoundary_of_twice {fm : Format} (twice : (s.fr.get f).candidate = some fm) :
    seekBoundary f (some fm) (marked f s) = identify f fm (marked f s) := by
  refine if_pos ?_
  rw [marked_fr, if_pos rfl]
  exact twice

end

/-! ## The start of a feed domain (R15) -/

section
variable (f : Feed) (s : State)

theorem startDomain_fmt : (startDomain f s).fmt = s.fmt.set f
    { s.fmt.get f with phase := 0, built := Table.fill 4 0, firstSent := Table.fill 4 false, sets := [] } := rfl

theorem startDomain_tpt (i : RecordNo) : (startDomain f s).tpt.get i =
    if (s.tpt.get i).domain = feedDomain f ∧ (s.tpt.get i).state = .running then { s.tpt.get i with state := .filling }
    else s.tpt.get i := Table.get_map _ _ _

/-- The domain starts with FR f as r. -/
def startedAs (f : Feed) (r : Receiver) (s : State) : State := startDomain f (s.setFr f r)

theorem frame_startedAs (r : Receiver) : Frame { fr := true, fmt := true, tpt := true, cm := true } s (startedAs f r s) :=
  ((frame_setFr s f r).mono).trans ((frame_startDomain _ f).mono)

theorem startedAs_fr (r : Receiver) (g : Feed) : (startedAs f r s).fr.get g = if f = g then r else s.fr.get g :=
  (congrArg (·.get g) ((frame_startDomain _ f).fr rfl)).trans (setFr_get _ _ _ _)

theorem startedAs_tpt (r : Receiver) (i : RecordNo) : (startedAs f r s).tpt.get i =
    if (s.tpt.get i).domain = feedDomain f ∧ (s.tpt.get i).state = .running then { s.tpt.get i with state := .filling }
    else s.tpt.get i := startDomain_tpt f _ i

/-- The phase and the built counts with which a domain starts (R15, R40). -/
theorem startedAs_fmt (r : Receiver) : ((startedAs f r s).fmt.get f).phase = 0 ∧
    ((startedAs f r s).fmt.get f).built = Table.fill 4 0 := by
  unfold startedAs
  rw [startDomain_fmt, Table.get_set_same]
  exact ⟨rfl, rfl⟩

end

/-! ## Identification (R5, R6) -/

/-- FR r as it identifies format fm, to settle in state st (R5). -/
def Receiver.identified (r : Receiver) (fm : Format) (st : FrState) : Receiver :=
  { r with state := st, detected := some fm, candidate := none }

section
variable {f : Feed} {fm : Format} {s : State}

/-- The state in which a format that is accepted settles (R6). -/
def settlingOn (f : Feed) (fm : Format) (s : State) : State := startedAs f
  { (s.fr.get f).identified fm .settling with settleRemaining := (s.fr.get f).settleFrames } s

theorem identify_of_settling (accepted : (s.fr.get f).expected = none ∨ (s.fr.get f).expected = some fm)
    (settles : (s.fr.get f).settleFrames ≠ 0) : identify f fm s = settlingOn f fm s :=
  (if_pos accepted).trans (if_neg settles)

theorem identify_of_locking (accepted : (s.fr.get f).expected = none ∨ (s.fr.get f).expected = some fm)
    (locks : (s.fr.get f).settleFrames = 0) : identify f fm s = enterLocked f (settlingOn f fm s) :=
  (if_pos accepted).trans (if_pos locks)

theorem identify_of_wrong (wrong : ¬((s.fr.get f).expected = none ∨ (s.fr.get f).expected = some fm)) :
    identify f fm s = report .formatMismatch (.inputFeed f) (startedAs f ((s.fr.get f).identified fm .wrongFormat) s) :=
  if_neg wrong

/-- The records after a start and an entry into LOCKED: those that ran in the domain, and those of the feed's rings. -/
theorem settlingOn_locked_tpt (i : RecordNo) : (enterLocked f (settlingOn f fm s)).tpt.get i =
    if ((s.tpt.get i).domain = feedDomain f ∧ (s.tpt.get i).state = .running) ∨
        ((s.tpt.get i).ring.val / 4 = f.val ∧ (s.tpt.get i).state ≠ .free) then
      { s.tpt.get i with state := .filling } else s.tpt.get i := by
  rw [enterLocked_tpt, settlingOn, startedAs_tpt]
  by_cases ran : (s.tpt.get i).domain = feedDomain f ∧ (s.tpt.get i).state = .running
  · rw [if_pos ran, if_pos (c := _ ∨ _) (Or.inl ran)]
    exact ite_self _
  · rw [if_neg ran]
    exact if_congr (or_iff_right ran).symm rfl rfl

end

/-- What an identification of fm leaves of the feed, whatever the settings: the format, the phase and the built counts (R5, R15). -/
theorem identify_detected (f : Feed) (fm : Format) (s : State) : ((identify f fm s).fr.get f).detected = some fm ∧
    ((identify f fm s).fr.get f).candidate = none ∧ ((identify f fm s).fmt.get f).phase = 0 ∧
    ((identify f fm s).fmt.get f).built = Table.fill 4 0 := by
  by_cases accepted : (s.fr.get f).expected = none ∨ (s.fr.get f).expected = some fm
  · have fr : (settlingOn f fm s).fr.get f = _ := (startedAs_fr f s _ f).trans (if_pos rfl)
    by_cases locks : (s.fr.get f).settleFrames = 0
    · rw [identify_of_locking accepted locks, enterLocked_fr, if_pos rfl, fr, (frame_enterLocked _ f).fmt rfl]
      exact ⟨rfl, rfl, startedAs_fmt f s _⟩
    · rw [identify_of_settling accepted locks, fr]
      exact ⟨rfl, rfl, startedAs_fmt f s _⟩
  · rw [identify_of_wrong accepted, (frame_report _ _ _).fr rfl, (frame_report _ _ _).fmt rfl, startedAs_fr, if_pos rfl]
    exact ⟨rfl, rfl, startedAs_fmt f s _⟩

section
variable {f : Feed} {fm : Format} {s : State}

theorem identify_of_accepted (accepted : (s.fr.get f).expected = none ∨ (s.fr.get f).expected = some fm) :
    ((identify f fm s).fr.get f).settleRemaining = (s.fr.get f).settleFrames ∧ (identify f fm s).log = s.log ∧
      ((identify f fm s).fr.get f).state = if (s.fr.get f).settleFrames = 0 then .locked else .settling := by
  have fr : (settlingOn f fm s).fr.get f = _ := (startedAs_fr f s _ f).trans (if_pos rfl)
  have log : (settlingOn f fm s).log = s.log := (frame_startedAs f s _).log rfl
  by_cases locks : (s.fr.get f).settleFrames = 0
  · rw [identify_of_locking accepted locks, enterLocked_fr, if_pos rfl, fr, if_pos locks]
    exact ⟨rfl, ((frame_enterLocked _ f).log rfl).trans log, rfl⟩
  · rw [identify_of_settling accepted locks, fr, if_neg locks]
    exact ⟨rfl, log, rfl⟩

/-- With settle frames 0 an accepted format locks at once (R6). -/
theorem enteredLocked_identify (accepted : (s.fr.get f).expected = none ∨ (s.fr.get f).expected = some fm)
    (locks : (s.fr.get f).settleFrames = 0) {t : State} (rings : t.rings = s.rings) (tpt : t.tpt = s.tpt) :
    EnteredLocked f t (countDue f (identify f fm s)) := by
  rw [identify_of_locking accepted locks]
  refine enteredLocked_of (u := settlingOn f fm s) (((frame_startedAs f s _).rings rfl).trans rings.symm) rfl rfl rfl
    fun _ i notFree on => Or.inl ?_
  rw [tpt] at notFree on
  change ((enterLocked f (settlingOn f fm s)).tpt.get i).state = .filling
  rw [settlingOn_locked_tpt, if_pos (Or.inr ⟨on, notFree⟩)]

theorem identify_tpt (i : RecordNo) : (identify f fm s).tpt.get i =
    if ((s.tpt.get i).domain = feedDomain f ∧ (s.tpt.get i).state = .running) ∨
        ((((s.fr.get f).expected = none ∨ (s.fr.get f).expected = some fm) ∧ (s.fr.get f).settleFrames = 0) ∧
          (s.tpt.get i).ring.val / 4 = f.val ∧ (s.tpt.get i).state ≠ .free) then
      { s.tpt.get i with state := .filling } else s.tpt.get i := by
  have unlocked {p : Prop} {q : Prop} (not : ¬p) : q ↔ q ∨ (p ∧ (s.tpt.get i).ring.val / 4 = f.val ∧
      (s.tpt.get i).state ≠ .free) := (or_iff_left fun both => not both.1).symm
  by_cases accepted : (s.fr.get f).expected = none ∨ (s.fr.get f).expected = some fm
  · by_cases locks : (s.fr.get f).settleFrames = 0
    · rw [identify_of_locking accepted locks, settlingOn_locked_tpt]
      exact if_congr (or_congr_right (and_iff_right ⟨accepted, locks⟩).symm) rfl rfl
    · rw [identify_of_settling accepted locks, settlingOn, startedAs_tpt]
      exact if_congr (unlocked fun both => locks both.2) rfl rfl
  · rw [identify_of_wrong accepted, (frame_report _ _ _).tpt rfl, startedAs_tpt]
    exact if_congr (unlocked fun both => accepted both.1) rfl rfl

end

/-- Settles O17: the branches of the boundary, and in SEEKING the three of the candidate, with the identification by its rules above. -/
theorem seekingIdentifiesFormat : Obligations.SeekingIdentifiesFormat := by
  unfold Obligations.SeekingIdentifiesFormat
  intro f period order s quiet r m after
  have goes : after = .next (frameMark f period order s) := exec_frameBoundary_of_quiet quiet f period order
  refine ⟨fun u => rfl, fun off => ?off, fun on first => ?first, fun seeking opened => ?seeking⟩
  case off => rw [goes, frameMark_of_off off]
  case first => rw [goes, frameMark_of_first on first]
  case seeking =>
    have seeks : after = .next (countDue f (seekBoundary f m (marked f s))) := by
      rw [goes, frameMark_of_seeking seeking opened]
    have fr : (marked f s).fr.get f = { r with lineCount := 1 } := (marked_fr f).trans (if_pos rfl)
    refine ⟨fun unmatched => ?none, fun fm matched new => ?new, fun fm matched twice => ?twice⟩
    case none => rw [seeks, unmatched, seekBoundary_none]
    case new => rw [seeks, matched, seekBoundary_of_new new]
    case twice =>
      rw [matched, seekBoundary_of_twice twice] at seeks
      obtain ⟨detected, candidate, phase, built⟩ := identify_detected f fm (marked f s)
      refine ⟨_, seeks, detected, candidate, phase, built, fun accepted => ?accepted, fun other wrong => ?wrong, ?cues,
        fun i => ?records⟩
      case accepted =>
        obtain ⟨settle, log, state⟩ := identify_of_accepted (f := f) (fm := fm) (s := marked f s) (by rw [fr]; exact accepted)
        rw [fr] at settle state
        refine ⟨settle, log, state, fun locks => ?_, fun settles => ?_⟩
        · exact enteredLocked_identify (by rw [fr]; exact accepted) (by rw [fr]; exact locks) rfl rfl
        · change (identify f fm (marked f s)).rings = _
          rw [identify_of_settling (by rw [fr]; exact accepted) (by rw [fr]; exact settles)]
          exact (frame_startedAs f _ _).rings rfl
      case wrong =>
        have refused : ¬(((marked f s).fr.get f).expected = none ∨ ((marked f s).fr.get f).expected = some fm) := by
          rw [fr]
          exact not_or.2 ⟨other, wrong⟩
        change ((identify f fm (marked f s)).fr.get f).state = _ ∧ (identify f fm (marked f s)).log = _
        rw [identify_of_wrong refused, (frame_report _ _ _).fr rfl, startedAs_fr, if_pos rfl]
        exact ⟨rfl, report_log_congr _ _ rfl rfl rfl⟩
      case cues =>
        unfold countDue
        rw [(frame_identify _ f fm).cues rfl]
        rfl
      case records =>
        refine (identify_tpt i).trans ?_
        rw [fr]
        rfl

end Machine
end Sys2Proof
end

section
/-! PROOF. A switch among the other parts of an event: what the commit in flight comes to (R102, R103, R106, R115, R164). -/

namespace Sys2Proof
namespace Machine

/-! ## The switch by itself -/

section
variable {d : Domain} {running : Bool} {c : InFlight} {s : State}

/-- The commit in flight, with domain d among those it has switched (R102). -/
def InFlight.joined (c : InFlight) (d : Domain) : InFlight := { c with switched := c.switched.set d true }

/-- The part when domain d has switched to the snapshot in flight, before the completion that may follow (R103). -/
def switchedPart (d : Domain) (running : Bool) (c : InFlight) (s : State) : State :=
  (switchTo d running c.snapshot s).setCe { s.ce with inFlight := some (c.joined d) }

theorem switchAt_last_eq (flight : s.ce.inFlight = some c) (waiting : s.ce.waiting = []) (not : c.switched.get d = false)
    (others : ∀ e, e ≠ d → c.switched.get e = true) :
    switchAt d running s = completedPart (c.joined d) (switchedPart d running c s) :=
  (switchAt_of_last flight not others).trans (completeCommit_of_none_waiting waiting)

theorem switchAt_active (flight : s.ce.inFlight = some c) (waiting : s.ce.waiting = []) (not : c.switched.get d = false) :
    (switchAt d running s).active = switchedBank d c.snapshot s.active := by
  by_cases others : ∀ e, e ≠ d → c.switched.get e = true
  · rw [switchAt_last_eq flight waiting not others, completedPart_active]
    rfl
  · push Not at others
    obtain ⟨e, other, left⟩ := others
    rw [switchAt_of_left flight not other (Bool.eq_false_iff.2 left)]
    rfl

theorem switchAt_ce_of_last (flight : s.ce.inFlight = some c) (waiting : s.ce.waiting = [])
    (not : c.switched.get d = false) (others : ∀ e, e ≠ d → c.switched.get e = true) :
    (switchAt d running s).ce = s.ce.completed c := by
  rw [switchAt_last_eq flight waiting not others, completedPart_ce]
  rfl

/-- The answer of a COMMIT command whose commit the switch completes (R115). -/
theorem switchAt_answers {b : Staging} {q : Command} (flight : s.ce.inFlight = some c) (waiting : s.ce.waiting = [])
    (not : c.switched.get d = false) (others : ∀ e, e ≠ d → c.switched.get e = true) (command : c.requester = .command b)
    (queue : s.mgmt.queue = [q]) : let t := switchAt d running s
    t.mgmt.queue = [] ∧ t.mgmt.cx = .idle ∧ t.mgmt.answers = if s.mgmt.discard then s.mgmt.answers else
      s.mgmt.answers ++ [⟨q.tag, q.code, .done, [numWord (stagingCode b), s.ce.commitCount + 1, numWord c.allocated,
        numWord (t.tpt.cells.filter fun tp => tp.state != .free).length]⟩] := by
  have mgmt : (switchedPart d running c s).mgmt = s.mgmt := (frame_switchTo s d running c.snapshot).mgmt rfl
  have ended := endCommit_of_command (c := c.joined d) command
    (((switchedPart d running c s).setTpt (unreserve (switchedPart d running c s).tpt)).setCe
      ((switchedPart d running c s).ce.completed (c.joined d)))
  dsimp only
  rw [switchAt_last_eq flight waiting not others, completedPart_tpt, ← heldPairs_length]
  unfold completedPart
  rw [ended]
  cases discard : s.mgmt.discard with
  | true =>
    rw [answerCommand_of_discarded (c := q) (rest := []) (by exact (congrArg Management.queue mgmt).trans queue)
      (by exact (congrArg Management.discard mgmt).trans discard)]
    exact ⟨rfl, rfl, (congrArg Management.answers mgmt : (switchedPart d running c s).mgmt.answers = _)⟩
  | false =>
    rw [answerCommand_of_head (c := q) (rest := []) (by exact (congrArg Management.queue mgmt).trans queue)
      (by exact (congrArg Management.discard mgmt).trans discard)]
    exact ⟨rfl, rfl, congrArg (fun m : Management => m.answers ++ [_]) mgmt⟩

end

theorem switchesCommit_switchAt (d : Domain) (running : Bool) (s : State) : SwitchesCommit d s (switchAt d running s) := by
  intro c flight waiting not
  have active := switchAt_active (running := running) flight waiting not
  refine ⟨fun x on => ?_, fun q on => ?_, ?_, switchAt_ce_of_last flight waiting not, fun others b q => ?_⟩
  · rw [active, switchedBank, Table.get_tab, if_pos on]
  · rw [active, switchedBank, Table.get_tab, if_pos on]
  · rintro ⟨e, other, left⟩
    rw [switchAt_of_left flight not other left]
    rfl
  · exact switchAt_answers flight waiting not others

/-! ## The other parts -/

/-- From s to t the Commit Engine and the bank in force stay, and where the PC is IDLE so do the PC and the executor. -/
structure KeepsCommit (s t : State) : Prop where
  ce : t.ce = s.ce
  active : t.active = s.active
  pc : s.pc.state = .idle → t.pc = s.pc
  executor : s.pc.state = .idle → SameExecutor s t

theorem KeepsCommit.refl (s : State) : KeepsCommit s s := ⟨rfl, rfl, fun _ => rfl, fun _ => SameExecutor.refl s⟩

theorem KeepsCommit.trans {s t u : State} (h : KeepsCommit s t) (k : KeepsCommit t u) : KeepsCommit s u where
  ce := k.ce.trans h.ce
  active := k.active.trans h.active
  pc idle := (k.pc (h.pc idle ▸ idle)).trans (h.pc idle)
  executor idle := (h.executor idle).trans (k.executor (h.pc idle ▸ idle))

theorem KeepsCommit.of_told {t : Touch} {s s' : State} (k : Frame t s s') (told : OnlyTold s s') (ce : t.ce = false := by rfl)
    (active : t.active = false := by rfl) (pc : t.pc = false := by rfl) : KeepsCommit s s' :=
  ⟨k.ce ce, k.active active, fun _ => k.pc pc, fun _ => SameExecutor.of_told told⟩

theorem KeepsCommit.of_frame {t : Touch} {s s' : State} (k : Frame t s s') (mgmt : t.mgmt = false := by rfl)
    (ce : t.ce = false := by rfl) (active : t.active = false := by rfl) (pc : t.pc = false := by rfl) : KeepsCommit s s' :=
  .of_told k (.of_frame k mgmt) ce active pc

theorem KeepsCommit.walk {α : Type} {g : α → State → State} {l : List α} (keep : ∀ a ∈ l, ∀ s, KeepsCommit s (g a s))
    (s : State) : KeepsCommit s (walk l g s) := by
  induction l generalizing s with
  | nil => exact KeepsCommit.refl s
  | cons a l ih =>
    exact (keep a List.mem_cons_self s).trans (ih (fun b mem => keep b (List.mem_cons_of_mem _ mem)) _)

/-! ## The records in use -/

/-- The number of records not FREE. -/
def usedCount (t : Table 64 TakePoint) : Nat := (t.cells.filter fun tp => tp.state != .free).length

theorem usedCount_eq_of_free {t u : Table 64 TakePoint} (h : ∀ i, (u.get i).state = .free ↔ (t.get i).state = .free) :
    usedCount u = usedCount t := by
  have count : ∀ v : Table 64 TakePoint, usedCount v = ((List.finRange 64).filter fun i => (v.get i).state != .free).length :=
    fun v => by
      rw [usedCount, Table.cells_eq_map_get, List.filter_map, List.length_map]
      rfl
  rw [count, count]
  refine congrArg List.length (List.filter_congr fun i _ => ?_)
  rw [Bool.eq_iff_iff, bne_iff_ne, bne_iff_ne, ne_eq, ne_eq, h i]

theorem usedCount_eq_of_sameUses {t u : Table 64 TakePoint} (h : SameUses t u) : usedCount u = usedCount t :=
  usedCount_eq_of_free fun i => (h i).free

/-! ## The switch among the others -/

/-- While a path check waits or runs no request with the CE is a command's: one command is in flight at most (R164). -/
def OneCommand (s : State) : Prop := s.pc.state ≠ .idle → NoCommandRequests s

theorem oneCommand_of_quiet {s : State} (h : s.quiet = true) : OneCommand s := noCommandRequests_of_checking h

theorem OneCommand.idle {s : State} (h : OneCommand s) {c : InFlight} (flight : s.ce.inFlight = some c) {b : Staging}
    (command : c.requester = .command b) : s.pc.state = .idle := by
  by_contra busy
  have none := h busy c.requester (by rw [requests_of_some flight]; exact List.mem_cons_self)
  rw [command] at none
  cases none

/-- A switch with other parts before it and after it switches the commit as it does by itself. -/
theorem SwitchesCommit.among {d : Domain} {running : Bool} {s u t : State} (one : OneCommand s) (before : KeepsCommit s u)
    (after : KeepsCommit (switchAt d running u) t)
    (used : ∀ c, u.ce.inFlight = some c → u.ce.waiting = [] → c.switched.get d = false →
      (∀ e, e ≠ d → c.switched.get e = true) → usedCount t.tpt = usedCount (switchAt d running u).tpt) :
    SwitchesCommit d s t := by
  intro c flight waiting not
  have switched := switchesCommit_switchAt d running u c (before.ce ▸ flight) (before.ce ▸ waiting) not
  rw [before.ce] at switched
  obtain ⟨entries, modes, left, last, answered⟩ := switched
  refine ⟨fun x on => ?_, fun q on => ?_, fun some => ?_, fun others => ?_, fun others b q command queue => ?_⟩
  · rw [after.active, entries x on]
  · rw [after.active, modes q on]
  · rw [after.ce, left some]
  · rw [after.ce, last others]
  · have idle := one.idle flight command
    have unmoved := before.executor idle
    have pc : (switchAt d running u).pc = u.pc := (frame_switchAt u d running).pc rfl
    have kept := after.executor (by rw [pc, before.pc idle, idle])
    obtain ⟨empty, ended, answers⟩ := answered others b q command (unmoved.queue.trans queue)
    refine ⟨kept.queue.trans empty, kept.cx.trans ended, kept.answers.trans ?_⟩
    have count : (t.tpt.cells.filter fun tp => tp.state != .free).length = _ :=
      used c (before.ce ▸ flight) (before.ce ▸ waiting) not others
    rw [answers, unmoved.discard, unmoved.answers, count]
    rfl

end Machine
end Sys2Proof
end

section
/-! PROOF. The stop of a feed domain among the other parts of an event (R15, R40, R102, R128, R131, R143, R152). -/

namespace Sys2Proof
namespace Machine

/-! ## What every switch keeps -/

/-- The blocks that validation, the waiting order and completion change beside the switches they bring (R96, R100, R106). -/
def besideSwitch : Touch := { tpt := true, ce := true, cues := true, log := true, mgmt := true }

section
variable {P : State → Prop} (free : ∀ {s s' : State}, Frame besideSwitch s s' → P s → P s')
  (stopped : ∀ e p s, P s → P (switchTo e false p s))
include free

theorem switchDomain_keeps {d : Domain} {running : Bool} (switched : ∀ p s, P s → P (switchTo d running p s)) (s : State)
    (h : P s) : P (switchDomain d running s) := by
  unfold switchDomain
  split
  · exact h
  · exact keeps_ite h (free ((frame_setCe _ _).mono) (switched _ s h))

include stopped

theorem acceptCommit_keeps (r : Requester) (p : Bank) (s : State) (h : P s) : P (acceptCommit r p s) :=
  keeps_walk (fun f s h => keeps_ite h (switchDomain_keeps free (stopped (feedDomain f)) s h)) _ _
    (free (((frame_setTpt s _).mono).trans ((frame_setCe _ _).mono)) h)

theorem validate_keeps (r : Requester) (s : State) (h : P s) : P (validate r s) :=
  keeps_ite (free ((frame_refuseCommit s _ _ _ _ _).mono) h)
    (keeps_ite (free ((frame_refuseCommit s _ _ _ _ _).mono) h) (acceptCommit_keeps free stopped r _ s h))

theorem takeWaiting_keeps (order : List Requester) (s : State) (h : P s) : P (takeWaiting order s) := by
  induction order generalizing s with
  | nil => exact h
  | cons r rest ih =>
    have judged := validate_keeps free stopped r (leaveOrder r (s.setCe { s.ce with waiting := rest }))
      (free (((frame_setCe s _).mono).trans ((frame_leaveOrder _ r).mono)) h)
    exact keeps_ite judged (ih _ judged)

/-- What a switch by itself keeps, and what frees records and requests keeps, every switch with its completion keeps. -/
theorem switchAt_keeps {d : Domain} {running : Bool} (switched : ∀ p s, P s → P (switchTo d running p s)) (s : State)
    (h : P s) : P (switchAt d running s) := by
  have domain := switchDomain_keeps free switched s h
  unfold switchAt completeIfSwitched
  split
  · exact domain
  · refine keeps_ite ?_ domain
    rw [completeCommit_eq]
    exact takeWaiting_keeps free stopped _ _ (free (((frame_setTpt _ _).mono).trans (((frame_setCe _ _).mono).trans
      ((frame_endCommit _ _).mono))) domain)

end

/-! ## A domain without ramps -/

/-- No destination of domain d ramps. -/
def NoRamps (d : Domain) (s : State) : Prop := ∀ x, destDomain x = d → s.ramps.get x = none

section
variable {d : Domain} {s : State}

theorem NoRamps.of_frame {t : Touch} {s' : State} (h : NoRamps d s) (k : Frame t s s') (ramps : t.ramps = false := by rfl) :
    NoRamps d s' := fun x on => (congrArg (·.get x) (k.ramps ramps)).trans (h x on)

theorem newRamp_of_stopped (p a : Bank) (x : Dest) : newRamp false p a x = none := rfl

theorem NoRamps.switchTo (h : NoRamps d s) (e : Domain) (p : Bank) : NoRamps d (switchTo e false p s) := fun x on => by
  rw [switchTo_ramps]
  split
  case isTrue => exact newRamp_of_stopped _ _ _
  case isFalse => exact h x on

theorem NoRamps.switchAt (h : NoRamps d s) (e : Domain) : NoRamps d (switchAt e false s) :=
  switchAt_keeps (fun k h => h.of_frame k) (fun e p _ h => h.switchTo e p) (fun p _ h => h.switchTo e p) s h

end

/-! ## The Path Checker's answer where the executor and the check are the same (R152) -/

theorem answerCommand_sameExecutor {s t : State} (k : SameExecutor s t) (v : Verdict) (words : List Word) :
    SameExecutor (answerCommand v words s) (answerCommand v words t) := by
  obtain ⟨queue, cx, discard, answers⟩ := k
  cases held : s.mgmt.queue with
  | nil =>
    unfold answerCommand completedManagement
    rw [queue, held]
    exact ⟨rfl, rfl, discard, answers⟩
  | cons c rest =>
    cases drops : s.mgmt.discard with
    | true =>
      rw [answerCommand_of_discarded held drops, answerCommand_of_discarded (queue.trans held) (discard.trans drops)]
      exact ⟨rfl, rfl, rfl, answers⟩
    | false =>
      rw [answerCommand_of_head held drops, answerCommand_of_head (queue.trans held) (discard.trans drops)]
      exact ⟨rfl, rfl, discard, congrArg (· ++ [_]) answers⟩

theorem abortPathCheck_pc (s : State) : (abortPathCheck s).pc = { s.pc with state := .idle } :=
  (frame_answerCommand _ _ _).pc rfl

theorem abortPathCheck_sameExecutor {s t : State} (pc : t.pc = s.pc) (k : SameExecutor s t) :
    SameExecutor (abortPathCheck s) (abortPathCheck t) := by
  unfold abortPathCheck
  rw [pc]
  have marked : SameExecutor (s.setPc { s.pc with state := .idle }) (t.setPc { s.pc with state := .idle }) :=
    ⟨k.queue, k.cx, k.discard, k.answers⟩
  exact answerCommand_sameExecutor marked _ _

theorem pathCheckStop_pc (f : Feed) (s : State) : (pathCheckStop f s).pc =
    if s.pc.state ≠ .idle ∧ s.pc.feed = f then { s.pc with state := .idle } else s.pc := by
  unfold pathCheckStop
  split
  · exact abortPathCheck_pc s
  · rfl

theorem pathCheckStop_sameExecutor (f : Feed) {s t : State} (pc : t.pc = s.pc) (k : SameExecutor s t) :
    SameExecutor (pathCheckStop f s) (pathCheckStop f t) := by
  by_cases not : s.pc.state = .idle ∨ s.pc.feed ≠ f
  · rw [pathCheckStop_of_not not, pathCheckStop_of_not (by rw [pc]; exact not)]
    exact k
  · push Not at not
    obtain ⟨busy, on⟩ := not
    rw [pathCheckStop_of_busy busy on, pathCheckStop_of_busy (by rw [pc]; exact busy) (by rw [pc]; exact on)]
    exact abortPathCheck_sameExecutor pc k

/-! ## The stop -/

/-- From s to t all stays that the stop of a domain changes: the output feeds, the ramps, the clip marks, the rounds, the Commit Engine, the bank in force, the PC and the executor. -/
structure BesideStop (s t : State) : Prop where
  fmt : t.fmt = s.fmt
  ramps : t.ramps = s.ramps
  clips : t.clips = s.clips
  cm : t.cm = s.cm
  ce : t.ce = s.ce
  active : t.active = s.active
  pc : t.pc = s.pc
  executor : SameExecutor s t

theorem BesideStop.refl (s : State) : BesideStop s s := ⟨rfl, rfl, rfl, rfl, rfl, rfl, rfl, SameExecutor.refl s⟩

theorem BesideStop.trans {s t u : State} (h : BesideStop s t) (k : BesideStop t u) : BesideStop s u :=
  ⟨k.fmt.trans h.fmt, k.ramps.trans h.ramps, k.clips.trans h.clips, k.cm.trans h.cm, k.ce.trans h.ce,
    k.active.trans h.active, k.pc.trans h.pc, h.executor.trans k.executor⟩

/-- The blocks that BesideStop names are none of t's. -/
def Touch.besideStop (t : Touch) : Bool := !t.fmt && !t.ramps && !t.clips && !t.cm && !t.ce && !t.active && !t.pc

theorem BesideStop.of_told {t : Touch} {s s' : State} (k : Frame t s s') (told : OnlyTold s s')
    (beside : t.besideStop = true := by rfl) : BesideStop s s' := by
  simp only [Touch.besideStop, Bool.and_eq_true, Bool.not_eq_true'] at beside
  obtain ⟨⟨⟨⟨⟨⟨fmt, ramps⟩, clips⟩, cm⟩, ce⟩, active⟩, pc⟩ := beside
  exact ⟨k.fmt fmt, k.ramps ramps, k.clips clips, k.cm cm, k.ce ce, k.active active, k.pc pc, SameExecutor.of_told told⟩

theorem BesideStop.of_frame {t : Touch} {s s' : State} (k : Frame t s s') (mgmt : t.mgmt = false := by rfl)
    (beside : t.besideStop = true := by rfl) : BesideStop s s' := .of_told k (.of_frame k mgmt) beside

theorem BesideStop.keepsCommit {s t : State} (h : BesideStop s t) : KeepsCommit s t :=
  ⟨h.ce, h.active, fun _ => h.pc, fun _ => h.executor⟩

theorem noRamps_halted (f : Feed) (s : State) : NoRamps (feedDomain f) (halted f s) := fun x on => by
  rw [halted_ramps, if_pos on]

section
variable {f : Feed} {s u t : State}

theorem stopDomain_clips (f : Feed) (s : State) : (stopDomain f s).clips = (halted f s).clips := by
  rw [stopDomain_eq, (frame_pathCheckStop _ f).clips rfl, (frame_switchAt _ _ _).clips rfl]

theorem stopDomain_cm (f : Feed) (s : State) : (stopDomain f s).cm = (halted f s).cm := by
  rw [stopDomain_eq, (frame_pathCheckStop _ f).cm rfl, (frame_switchAt _ _ _).cm rfl]

theorem noRamps_stopDomain (f : Feed) (s : State) : NoRamps (feedDomain f) (stopDomain f s) := by
  rw [stopDomain_eq]
  exact ((noRamps_halted f s).switchAt _).of_frame (frame_pathCheckStop _ f)

theorem keepsCommit_halted (f : Feed) (s : State) : KeepsCommit s (halted f s) := .of_frame (frame_halted f s)

theorem keepsCommit_pathCheckStop (f : Feed) (s : State) : KeepsCommit s (pathCheckStop f s) := by
  have frame := frame_pathCheckStop s f
  have same (idle : s.pc.state = .idle) : pathCheckStop f s = s := pathCheckStop_of_not (Or.inl idle)
  refine ⟨frame.ce rfl, frame.active rfl, fun idle => ?_, fun idle => ?_⟩
  · rw [same idle]
  · rw [same idle]
    exact SameExecutor.refl s

theorem stopSwitch_pc (f : Feed) (s : State) : (switchAt (feedDomain f) false (halted f s)).pc = s.pc :=
  ((frame_switchAt _ _ _).pc rfl).trans ((frame_halted f s).pc rfl)

theorem stopSwitch_sameExecutor (f : Feed) {s : State} (noCommand : NoCommandRequests s) :
    SameExecutor s (switchAt (feedDomain f) false (halted f s)) := by
  refine (SameExecutor.of_frame (frame_halted f s)).trans (switchAt_sameExecutor ?_ _ _)
  unfold NoCommandRequests
  rw [(frame_halted f s).ce rfl]
  exact noCommand

/-- The stop of a domain among parts that leave what it changes. -/
theorem domainStopped_among (one : OneCommand s) (before : BesideStop s u) (after : BesideStop (stopDomain f u) t)
    (uses : SameUses (stopDomain f u).tpt t.tpt) : DomainStopped f s t := by
  refine ⟨?phase, fun k => ⟨?ramp, ?clip⟩, ?checked, ?mismatch, ?commit, ?pc, fun busy on => ?executor⟩
  case phase => rw [after.fmt, stopDomain_phase, if_pos rfl]
  case ramp =>
    rw [after.ramps]
    exact noRamps_stopDomain f u _ (destDomain_domainDest _ _)
  case clip => rw [after.clips, stopDomain_clips, halted_clips, if_pos (destDomain_domainDest _ _)]
  case checked => rw [after.cm, stopDomain_cm, halted_rounds, if_pos rfl]
  case mismatch => rw [after.cm, stopDomain_cm, halted_rounds, if_pos rfl]
  case commit =>
    refine SwitchesCommit.among (u := halted f u) (running := false) one
      (before.keepsCommit.trans (keepsCommit_halted f u))
      (KeepsCommit.trans (keepsCommit_pathCheckStop f _) after.keepsCommit) fun _ _ _ _ _ => ?_
    rw [usedCount_eq_of_sameUses uses, stopDomain_eq, (frame_pathCheckStop _ f).tpt rfl]
  case pc => rw [after.pc, stopDomain_eq, pathCheckStop_pc, pathCheckStop_pc, stopSwitch_pc, before.pc]
  case executor =>
    have switched : SameExecutor s (switchAt (feedDomain f) false (halted f u)) := by
      refine before.executor.trans (stopSwitch_sameExecutor f ?_)
      unfold NoCommandRequests
      rw [before.ce]
      exact one busy
    have same := (pathCheckStop_sameExecutor f ((stopSwitch_pc f u).trans before.pc) switched).trans after.executor
    exact ⟨same.queue, same.cx, same.answers⟩

end

end Machine
end Sys2Proof
end

section
/-! PROOF. Among the parts of an event: what a switch and a stop leave of the records, what the log tells on, and a part that comes once (R15, R102, R106, R155). -/

namespace Sys2Proof
namespace Machine

/-! ## What the log tells -/

theorem noticeForNewest_tells {a : Reason} {b : FaultSource} {s : State} (h : s.log.tells a b = true) :
    (noticeForNewest s).log.tells a b = true := by
  unfold noticeForNewest
  split
  · split
    · exact h
    · exact h
  · exact h

theorem tells_of_eq {a : Reason} {b : FaultSource} {s t : State} (e : t.log = s.log) (h : s.log.tells a b = true) :
    t.log.tells a b = true := e ▸ h

/-- What the log tells it tells on after every leaf operation of the events (R155). -/
theorem tells_keptByEvents (a : Reason) (b : FaultSource) : KeptByEvents fun s => s.log.tells a b = true where
  free k h := tells_of_eq (k.log rfl) h
  report reason src _ h := report_tells_mono reason src _ h
  notice _ h := noticeForNewest_tells h
  ce _ _ _ h := h
  switched d running _ s _ h := tells_of_eq ((frame_switchDomain s d running).log rfl) h
  accept _ _ _ h := h
  complete _ _ _ _ _ h := h
  resetRing r s h := tells_of_eq ((frame_resetRing s r).log rfl) h
  starveRing r s h := tells_of_eq ((frame_starveRing s r).log rfl) h
  startTakePoints d s h := tells_of_eq ((frame_startTakePoints s d).log rfl) h
  judgeTakePoints d s h := tells_of_eq ((frame_judgeTakePoints s d).log rfl) h
  writeEvent r sets s h := keeps_writeEvent (P := fun s => s.log.tells a b = true) (fun _ _ _ h => h)
    (fun _ _ h => report_tells_mono _ _ _ (tells_of_eq rfl h)) r sets s h
  emission d s h := keeps_emission (P := fun s => s.log.tells a b = true) (fun k h => tells_of_eq (k.log rfl) h)
    (fun reason src _ h => report_tells_mono reason src _ h) (fun _ _ h => report_tells_mono _ _ _ (tells_of_eq rfl h))
    (fun d s h => tells_of_eq ((frame_advanceTakes s d).log rfl) h)
    (fun d s h => tells_of_eq ((frame_advanceRamps s d).log rfl) h) d s h
  endRamps d s h := tells_of_eq ((frame_endRamps s d).log rfl) h

/-! ## Records kept or freed -/

/-- Every record of u is FREE, or on the ring and in the state it has in t. -/
def KeptOrFreed (t u : Table 64 TakePoint) : Prop :=
  ∀ i, (u.get i).state = .free ∨ ((u.get i).state = (t.get i).state ∧ (u.get i).ring = (t.get i).ring)

theorem KeptOrFreed.refl (t : Table 64 TakePoint) : KeptOrFreed t t := fun _ => Or.inr ⟨rfl, rfl⟩

theorem KeptOrFreed.trans {t u v : Table 64 TakePoint} (h : KeptOrFreed t u) (k : KeptOrFreed u v) : KeptOrFreed t v := by
  intro i
  rcases k i with free | ⟨state, ring⟩
  · exact Or.inl free
  · rcases h i with free | ⟨state', ring'⟩
    · exact Or.inl (state.trans free)
    · exact Or.inr ⟨state.trans state', ring.trans ring'⟩

theorem keptOrFreed_freedIfUnused {t u : Table 64 TakePoint} {g : TakePoint → TakePoint} (i : RecordNo)
    (get : u.get i = (g (t.get i)).freedIfUnused ∨ u.get i = t.get i)
    (same : (g (t.get i)).state = (t.get i).state ∧ (g (t.get i)).ring = (t.get i).ring) :
    (u.get i).state = .free ∨ ((u.get i).state = (t.get i).state ∧ (u.get i).ring = (t.get i).ring) := by
  obtain ⟨state, ring⟩ := same
  rcases get with freed | kept
  · rcases TakePoint.freedIfUnused_cases (g (t.get i)) with ⟨-, -, e⟩ | ⟨-, e⟩
    · exact Or.inl (by rw [freed, e])
    · rw [freed, e]
      exact Or.inr ⟨state, ring⟩
  · rw [kept]
    exact Or.inr ⟨rfl, rfl⟩

theorem keptOrFreed_freeUnused (d : Domain) (t : Table 64 TakePoint) : KeptOrFreed t (freeUnused d t) := fun i =>
  keptOrFreed_freedIfUnused (g := id) i (by
    have get : (freeUnused d t).get i = if (t.get i).domain = d then (t.get i).freedIfUnused else t.get i := Table.get_map _ _ _
    rw [get]
    exact (ite_eq_or_eq _ _ _)) ⟨rfl, rfl⟩

theorem keptOrFreed_unreserve (t : Table 64 TakePoint) : KeptOrFreed t (unreserve t) := fun i =>
  keptOrFreed_freedIfUnused (g := fun tp => { tp with reserved := false }) i (Or.inl (Table.get_map _ _ _)) ⟨rfl, rfl⟩

theorem MovesReferences.keptOrFreed {d : Domain} {t u : Table 64 TakePoint} (h : MovesReferences d t u) : KeptOrFreed t u :=
  fun i => by
    obtain ⟨state, ring, -⟩ := h i
    exact Or.inr ⟨state, ring⟩

theorem keptOrFreed_switchTo (d : Domain) (running : Bool) (p : Bank) (s : State) :
    KeptOrFreed s.tpt (switchTo d running p s).tpt := by
  rw [switchTo_tpt]
  exact (MovesReferences.walk (fun x s => movesReferences_switchDest running p x s) d s).keptOrFreed.trans
    (keptOrFreed_freeUnused d _)

theorem keptOrFreed_switchDomain (d : Domain) (running : Bool) (s : State) :
    KeptOrFreed s.tpt (switchDomain d running s).tpt := by
  unfold switchDomain
  split
  · exact KeptOrFreed.refl _
  · exact keeps_ite (P := fun t : State => KeptOrFreed s.tpt t.tpt) (KeptOrFreed.refl _) (keptOrFreed_switchTo d running _ s)

theorem keptOrFreed_halted (f : Feed) (s : State) : KeptOrFreed s.tpt (halted f s).tpt := fun i => by
  have get := halted_get f s i
  dsimp only at get
  rw [get]
  split
  · dsimp only
    split
    · exact Or.inl rfl
    · exact Or.inr ⟨rfl, rfl⟩
  · exact Or.inr ⟨rfl, rfl⟩

/-! ## A switch that no request waits for -/

/-- No request waits behind one in flight (R96). -/
def NoneBehind (s : State) : Prop := s.ce.inFlight = none ∨ s.ce.waiting = []

theorem NoneBehind.congr {s t : State} (h : NoneBehind s) (ce : t.ce = s.ce) : NoneBehind t := by
  unfold NoneBehind
  rw [ce]
  exact h

theorem NoneBehind.completeIfSwitched {s : State} (h : s.ce.waiting = []) :
    KeptOrFreed s.tpt (completeIfSwitched s).tpt ∧ (completeIfSwitched s).ce.waiting = [] := by
  unfold Machine.completeIfSwitched
  split
  · exact ⟨KeptOrFreed.refl _, h⟩
  · rename_i c _
    refine keeps_ite (P := fun t => KeptOrFreed s.tpt t.tpt ∧ t.ce.waiting = []) ?_ ⟨KeptOrFreed.refl _, h⟩
    rw [completeCommit_of_none_waiting h, completedPart_tpt, completedPart_ce]
    exact ⟨keptOrFreed_unreserve _, h⟩

theorem NoneBehind.switchAt {s : State} (h : NoneBehind s) (d : Domain) (running : Bool) :
    KeptOrFreed s.tpt (switchAt d running s).tpt ∧ NoneBehind (switchAt d running s) := by
  rcases h with none | waiting
  · rw [switchAt_of_idle none]
    exact ⟨KeptOrFreed.refl _, Or.inl none⟩
  · obtain ⟨records, waits⟩ := NoneBehind.completeIfSwitched (s := switchDomain d running s)
      ((unmoved_switchDomain d running s).waiting.trans waiting)
    exact ⟨(keptOrFreed_switchDomain d running s).trans records, Or.inr waits⟩

theorem NoneBehind.stopDomain {s : State} (h : NoneBehind s) (f : Feed) :
    KeptOrFreed s.tpt (stopDomain f s).tpt ∧ NoneBehind (stopDomain f s) := by
  have halts : NoneBehind (halted f s) := h.congr ((frame_halted f s).ce rfl)
  obtain ⟨records, behind⟩ := halts.switchAt (feedDomain f) false
  rw [stopDomain_eq, (frame_pathCheckStop _ f).tpt rfl]
  exact ⟨(keptOrFreed_halted f s).trans records, behind.congr ((frame_pathCheckStop _ f).ce rfl)⟩

/-! ## One part among those of an event -/

theorem walk_append {α : Type} (a b : List α) (g : α → State → State) (s : State) :
    walk (a ++ b) g s = walk b g (walk a g s) := List.foldl_append

/-- A part that comes once stands between those before it and those after it. -/
theorem exists_split {α : Type} [DecidableEq α] {l parts : List α} {a : α} (perm : l.Perm parts) (once : parts.count a = 1) :
    ∃ pre post, l = pre ++ a :: post ∧ ∀ p, p ∈ pre ∨ p ∈ post → p ∈ parts ∧ p ≠ a := by
  have mem : a ∈ l := perm.mem_iff.2 (List.count_pos_iff.1 (by omega))
  obtain ⟨pre, post, split⟩ := List.append_of_mem mem
  have count : (pre ++ a :: post).count a = 1 := by rw [← split, perm.count_eq, once]
  rw [List.count_append, List.count_cons_self] at count
  refine ⟨pre, post, split, fun p side => ⟨perm.mem_iff.1 (split ▸ ?_), fun same => ?_⟩⟩
  · rw [List.mem_append, List.mem_cons]
    exact side.imp_right Or.inr
  · rw [same] at side
    rcases side with here | here <;> have := List.count_pos_iff.2 here <;> omega

end Machine
end Sys2Proof
end

section
/-! PROOF. O19: the loss of lock (R4, R7, R15, R102, R111, R152). -/

namespace Sys2Proof
namespace Machine

/-! ## The parts of a loss -/

/-- A part of a loss of lock (R7, R15, R111). -/
def OfLoss (p : Part) : Prop := p = .leaveLocked ∨ p = .stop ∨ p = .dueCount

section
variable {f : Feed} {fm : Format} {p : Part}

theorem stopDomain_rings (f : Feed) (s : State) : (stopDomain f s).rings = s.rings := (frame_stopDomain s f).rings rfl

theorem boundaryPart_loss_rings (of : OfLoss p) (s : State) : (boundaryPart f fm p s).rings = s.rings := by
  obtain rfl | rfl | rfl := of
  · exact (frame_leaveLocked s f).rings rfl
  · exact stopDomain_rings f s
  · rfl

/-- A part of a loss changes of the FRs nothing but quads of the feed. -/
theorem boundaryPart_loss_fr (of : OfLoss p) (s : State) :
    (∃ quads, (boundaryPart f fm p s).fr.get f = { s.fr.get f with quads := quads }) ∧
      ∀ g, g ≠ f → (boundaryPart f fm p s).fr.get g = s.fr.get g := by
  obtain rfl | rfl | rfl := of
  · exact ⟨⟨_, (leaveLocked_fr f f s).trans (if_pos rfl)⟩, fun g other => (leaveLocked_fr f g s).trans (if_neg (Ne.symm other))⟩
  · have fr : (boundaryPart f fm .stop s).fr = s.fr := stopDomain_fr f s
    rw [fr]
    exact ⟨⟨_, rfl⟩, fun _ _ => rfl⟩
  · exact ⟨⟨_, rfl⟩, fun _ _ => rfl⟩

/-- A part of a loss other than the stop leaves what the stop changes, and the uses of the records. -/
theorem boundaryPart_loss_beside (of : OfLoss p) (other : p ≠ .stop) (s : State) :
    BesideStop s (boundaryPart f fm p s) ∧ SameUses s.tpt (boundaryPart f fm p s).tpt := by
  obtain rfl | rfl | rfl := of
  · refine ⟨.of_frame (frame_leaveLocked s f), fun i => ?_⟩
    have get : (boundaryPart f fm .leaveLocked s).tpt.get i = _ := leaveLocked_tpt f s i
    rw [get]
    split
    case isTrue on => exact ⟨⟨fun free => (by cases free), fun free => absurd free on.2⟩, rfl, rfl, rfl, rfl⟩
    case isFalse => exact TakePoint.SameUse.refl _
  · exact absurd rfl other
  · exact ⟨.of_frame (frame_countDue s f), SameUses.refl _⟩

end

/-! ## The walk over them -/

/-- What a loss of lock with candidate c has left when its parts are taken: the FR in SEEKING, and nothing of what the parts change (R4, R7). -/
structure LossBegun (f : Feed) (c : Option Format) (s u : State) : Prop where
  state : (u.fr.get f).state = .seeking
  detected : (u.fr.get f).detected = none
  candidate : (u.fr.get f).candidate = c
  told : u.log.tells .lockLost (.inputFeed f) = true
  others : ∀ g, g ≠ f → u.fr.get g = s.fr.get g
  rings : u.rings = s.rings

theorem LossBegun.part {f : Feed} {c : Option Format} {s u : State} (h : LossBegun f c s u) (fm : Format) {p : Part}
    (of : OfLoss p) : LossBegun f c s (boundaryPart f fm p u) := by
  obtain ⟨⟨quads, fr⟩, others⟩ := boundaryPart_loss_fr (f := f) (fm := fm) of u
  exact ⟨by rw [fr]; exact h.state, by rw [fr]; exact h.detected, by rw [fr]; exact h.candidate,
    (tells_keptByEvents _ _).boundaryPart f fm p u h.told, fun g other => (others g other).trans (h.others g other),
    (boundaryPart_loss_rings of u).trans h.rings⟩

section
variable {f : Feed} {fm : Format} {s u : State} {l : List Part}

theorem walk_loss_beside (of : ∀ p ∈ l, OfLoss p ∧ p ≠ .stop) (s : State) :
    BesideStop s (walk l (boundaryPart f fm) s) ∧ SameUses s.tpt (walk l (boundaryPart f fm) s).tpt := by
  induction l generalizing s with
  | nil => exact ⟨BesideStop.refl s, SameUses.refl _⟩
  | cons p l ih =>
    obtain ⟨loss, other⟩ := of p List.mem_cons_self
    obtain ⟨beside, uses⟩ := boundaryPart_loss_beside (f := f) (fm := fm) loss other s
    obtain ⟨beside', uses'⟩ := ih (fun q mem => of q (List.mem_cons_of_mem _ mem)) (boundaryPart f fm p s)
    exact ⟨beside.trans beside', uses.trans uses'⟩

/-- The domain's stop among the parts of the loss. -/
theorem domainStopped_walk (one : OneCommand s) (before : BesideStop s u) {parts : List Part} (perm : l.Perm parts)
    (of : ∀ p ∈ parts, OfLoss p) (once : parts.count .stop = 1) : DomainStopped f s (walk l (boundaryPart f fm) u) := by
  obtain ⟨pre, post, split, sides⟩ := exists_split perm once
  obtain ⟨pre_beside, -⟩ := walk_loss_beside (f := f) (fm := fm) (l := pre)
    (fun p mem => (sides p (Or.inl mem)).imp_left (of p)) u
  obtain ⟨post_beside, uses⟩ := walk_loss_beside (f := f) (fm := fm) (l := post)
    (fun p mem => (sides p (Or.inr mem)).imp_left (of p)) (stopDomain f (walk pre (boundaryPart f fm) u))
  rw [split, walk_append, walk_cons]
  exact domainStopped_among one (before.trans pre_beside) post_beside uses

/-- The quads and the watched tracks of a feed that has left LOCKED (R7, R139). -/
def TrackingLeft (f : Feed) (u : State) : Prop :=
  (∀ q, ((u.fr.get f).quads.get q).state = .unknown ∧ ((u.fr.get f).quads.get q).empty = 0) ∧
    ∀ w : TrackNo, w.val / 16 = f.val → u.watch.tracks.get w = ⟨.unknown, 0, 0⟩

theorem trackingLeft_leaveLocked (f : Feed) (s : State) : TrackingLeft f (leaveLocked f s) := by
  refine ⟨fun q => ?_, fun w on => ?_⟩
  · rw [leaveLocked_fr, if_pos rfl]
    dsimp only
    rw [Table.get_map]
    exact ⟨rfl, rfl⟩
  · rw [leaveLocked_tracks, if_pos on]

theorem TrackingLeft.congr (h : TrackingLeft f s) (fr : u.fr = s.fr) (watch : u.watch = s.watch) : TrackingLeft f u := by
  unfold TrackingLeft
  rw [fr, watch]
  exact h

theorem TrackingLeft.part {p : Part} (h : TrackingLeft f s) (of : OfLoss p) : TrackingLeft f (boundaryPart f fm p s) := by
  obtain rfl | rfl | rfl := of
  · exact trackingLeft_leaveLocked f s
  · exact h.congr (stopDomain_fr f s) ((frame_stopDomain s f).watch rfl)
  · exact h

/-- A record of a feed's ring while the feed loses its lock: FREE, or still on that ring. -/
def FreeOrOn (f : Feed) (i : RecordNo) (u : State) : Prop :=
  NoneBehind u ∧ ((u.tpt.get i).state = .free ∨ (u.tpt.get i).ring.val / 4 = f.val)

theorem FreeOrOn.leave {i : RecordNo} (h : FreeOrOn f i s) : FreeOrOn f i (leaveLocked f s) ∧
    (((leaveLocked f s).tpt.get i).state = .starved ∨ ((leaveLocked f s).tpt.get i).state = .free) := by
  obtain ⟨behind, record⟩ := h
  refine ⟨⟨behind.congr ((frame_leaveLocked s f).ce rfl), ?_⟩, ?_⟩ <;> rw [leaveLocked_tpt]
  · split
    case isTrue on => exact Or.inr on.1
    case isFalse => exact record
  · split
    case isTrue => exact Or.inl rfl
    case isFalse off => exact Or.inr (record.elim id fun on => by_contra fun used => off ⟨on, used⟩)

theorem FreeOrOn.stop {i : RecordNo} (h : FreeOrOn f i s) : FreeOrOn f i (stopDomain f s) := by
  obtain ⟨behind, record⟩ := h
  obtain ⟨records, behind'⟩ := behind.stopDomain f
  refine ⟨behind', ?_⟩
  rcases records i with free | ⟨state, ring⟩
  · exact Or.inl free
  · rw [state, ring]
    exact record

/-- The effects of leaving LOCKED stand at the end, wherever the stop came between (R7, R53, R139). -/
theorem leftLocked_walk (of : ∀ p ∈ l, OfLoss p) (leaves : .leaveLocked ∈ l) (ce : u.ce = s.ce) (tpt : u.tpt = s.tpt) :
    LeftLocked f s (walk l (boundaryPart f fm) u) := by
  obtain ⟨quads, tracks⟩ : TrackingLeft f (walk l (boundaryPart f fm) u) :=
    walk_brings (P := fun _ => True) (fun _ _ _ _ => trivial) (fun p mem _ _ moved => TrackingLeft.part moved (of p mem))
      (fun v _ => trackingLeft_leaveLocked f v) leaves trivial
  refine ⟨quads, tracks, fun behind i used on => ?_⟩
  refine walk_brings (f := boundaryPart f fm) (b := .leaveLocked) (P := FreeOrOn f i) (Q := fun v => (v.tpt.get i).state = .starved ∨ (v.tpt.get i).state = .free)
    (fun p mem v h => ?_) (fun p mem v h moved => ?_) (fun v h => h.leave.2) leaves
    ⟨NoneBehind.congr behind ce, Or.inr (by rw [tpt]; exact on)⟩
  · obtain rfl | rfl | rfl := of p mem
    · exact h.leave.1
    · exact h.stop
    · exact h
  · obtain rfl | rfl | rfl := of p mem
    · exact h.leave.2
    · rcases (h.1.stopDomain f).1 i with free | ⟨state, -⟩
      · exact Or.inr free
      · exact (congrArg (fun st => st = TpState.starved ∨ st = .free) state).mpr moved
    · exact moved

end

/-! ## A loss of lock -/

theorem count_stop_lossParts (st : FrState) : (lossParts st).count .stop = 1 := by cases st <;> decide

theorem ofLoss_of_mem {st : FrState} {extra : List Part} (he : ∀ p ∈ extra, p = .dueCount) {p : Part}
    (mem : p ∈ lossParts st ++ extra) : OfLoss p := by
  rcases List.mem_append.1 mem with part | more
  · exact mem_lossParts (List.mem_append_left _ part)
  · exact Or.inr (Or.inr (he p more))

/-- The state in which the parts of a loss of lock are taken: the FR in SEEKING, and LOCK LOST recorded (R4, R7). -/
def lossStart (f : Feed) (c : Option Format) (s : State) : State :=
  report .lockLost (.inputFeed f) (s.setFr f { s.fr.get f with state := .seeking, detected := none, candidate := c })

theorem loseLock_eq (f : Feed) (fm : Format) (c : Option Format) (order extra : List Part) (s : State) :
    loseLock f fm c order extra s =
      walk (schedule order (lossParts (s.fr.get f).state ++ extra)) (boundaryPart f fm) (lossStart f c s) := rfl

theorem lossStart_fr (f g : Feed) (c : Option Format) (s : State) : (lossStart f c s).fr.get g =
    if f = g then { s.fr.get f with state := .seeking, detected := none, candidate := c } else s.fr.get g := by
  rw [lossStart, (frame_report _ _ _).fr rfl]
  exact setFr_get _ _ _ _

theorem lossBegun_lossStart (f : Feed) (c : Option Format) (s : State) : LossBegun f c s (lossStart f c s) := by
  have fr : (lossStart f c s).fr.get f = _ := (lossStart_fr f f c s).trans (if_pos rfl)
  refine ⟨by rw [fr], by rw [fr], by rw [fr], report_tells _ _ _, fun g other => ?_, (frame_report _ _ _).rings rfl⟩
  rw [lossStart_fr, if_neg (Ne.symm other)]

theorem besideStop_lossStart (f : Feed) (c : Option Format) (s : State) : BesideStop s (lossStart f c s) :=
  BesideStop.trans (.of_frame (frame_setFr s f _)) (.of_told (frame_report _ _ _) (told_report _ _ _))

theorem lossStart_tpt (f : Feed) (c : Option Format) (s : State) : (lossStart f c s).tpt = s.tpt := (frame_report _ _ _).tpt rfl

/-- From s to u nothing is changed that a loss of lock looks at, but what FR f counts. -/
structure CountsOnly (f : Feed) (s u : State) : Prop where
  state : (u.fr.get f).state = (s.fr.get f).state
  others : ∀ g, g ≠ f → u.fr.get g = s.fr.get g
  rings : u.rings = s.rings
  tpt : u.tpt = s.tpt
  beside : BesideStop s u

theorem CountsOnly.refl (f : Feed) (s : State) : CountsOnly f s s := ⟨rfl, fun _ _ => rfl, rfl, rfl, BesideStop.refl s⟩

theorem countsOnly_marked (f : Feed) (s : State) : CountsOnly f s (marked f s) := by
  refine ⟨?_, fun g other => ?_, rfl, rfl, .of_frame (frame_setFr s f _)⟩
  · rw [marked_fr, if_pos rfl]
  · rw [marked_fr, if_neg (Ne.symm other)]

theorem lostLock_loseLock {f : Feed} {s u : State} (one : OneCommand s) (counts : CountsOnly f s u) (fm : Format)
    (c : Option Format) (order : List Part) {extra : List Part} (he : ∀ p ∈ extra, p = .dueCount) :
    LostLock f c s (loseLock f fm c order extra u) := by
  have perm := schedule_perm order (lossParts (u.fr.get f).state ++ extra)
  have of : ∀ p ∈ lossParts (u.fr.get f).state ++ extra, OfLoss p := fun p => ofLoss_of_mem he
  have of' : ∀ p ∈ schedule order (lossParts (u.fr.get f).state ++ extra), OfLoss p := fun p mem => of p (perm.mem_iff.1 mem)
  have once : (lossParts (u.fr.get f).state ++ extra).count .stop = 1 := by
    rw [List.count_append, count_stop_lossParts, List.count_eq_zero.2 fun mem => by cases he _ mem]
  have beside := counts.beside.trans (besideStop_lossStart f c u)
  rw [loseLock_eq]
  obtain ⟨state, detected, candidate, told, others, rings⟩ := walk_holds (P := LossBegun f c u) _
    (fun p mem v h => h.part fm (of' p mem)) _ (lossBegun_lossStart f c u)
  refine ⟨state, detected, candidate, told, fun g other => (others g other).trans (counts.others g other),
    rings.trans counts.rings, domainStopped_walk one beside perm of once, fun locked => ?_⟩
  refine leftLocked_walk of' ?_ beside.ce ((lossStart_tpt f c u).trans counts.tpt)
  rw [perm.mem_iff, counts.state, locked]
  exact List.mem_cons_self

/-! ## The events -/

theorem walk_setTpt {α : Type} {g : α → State → State} (sets : ∀ a s, g a s = s.setTpt (g a s).tpt) (l : List α) (s : State) :
    walk l g s = s.setTpt (walk l g s).tpt := by
  induction l generalizing s with
  | nil => rfl
  | cons a l ih =>
    rw [walk_cons]
    refine (ih (g a s)).trans ?_
    rw [sets a s]
    rfl

/-- Leaving LOCKED changes nothing but take points, watched tracks and the feed's quads (R7, R53, R139). -/
theorem leaveLocked_eq (f : Feed) (s : State) : leaveLocked f s =
    ((s.setTpt (leaveLocked f s).tpt).setTracks (leaveLocked f s).watch.tracks).setFr f
      { s.fr.get f with quads := ((leaveLocked f s).fr.get f).quads } := by
  have starved := walk_setTpt (g := fun q => starveRing (feedRing f q)) (fun _ _ => rfl) (List.finRange 4) s
  have quads : ((leaveLocked f s).fr.get f).quads = (s.fr.get f).quads.map QuadTrack.left := by
    rw [leaveLocked_fr, if_pos rfl]
  rw [quads]
  unfold leaveLocked
  dsimp only
  rw [starved]
  rfl

section
variable {f : Feed} {fm : Format} {period : Time} {order : List Part} {s : State}

theorem closeFrame_of_lost {m : Option Format} (running : runningState (s.fr.get f).state = true)
    (detected : (s.fr.get f).detected = some fm) (lost : m ≠ some fm) :
    closeFrame f m order s = loseLock f fm m order [.dueCount] s := by
  refine (if_pos running).trans ?_
  rw [detected]
  exact if_neg lost

theorem on_of_running (running : runningState (s.fr.get f).state = true) : (s.fr.get f).state ≠ .off := by
  intro off
  rw [off] at running
  cases running

theorem frameMark_of_lost (running : runningState (s.fr.get f).state = true) (detected : (s.fr.get f).detected = some fm)
    (opened : (s.fr.get f).frameOpen = true) (lost : matchFormat (s.fr.get f).lineCount period ≠ some fm) :
    frameMark f period order s =
      loseLock f fm (matchFormat (s.fr.get f).lineCount period) order [.dueCount] (marked f s) := by
  have fr : (marked f s).fr.get f = _ := (marked_fr f).trans (if_pos rfl)
  rw [frameMark_of_open (on_of_running running) opened]
  exact closeFrame_of_lost (by rw [fr]; exact running) (by rw [fr]; exact detected) lost

theorem lineGap_of_running (running : runningState (s.fr.get f).state = true) (detected : (s.fr.get f).detected = some fm) :
    lineGap f order s = loseLock f fm none order [] s := by
  refine (if_pos running).trans ?_
  rw [detected]

theorem lineGap_of_stopped (stopped : runningState (s.fr.get f).state = false) : lineGap f order s = s :=
  if_neg (by rw [stopped]; exact Bool.false_ne_true)

theorem exec_lineRecordGap_of_quiet (quiet : s.quiet = true) (f : Feed) (order : List Part) :
    exec (.lineRecordGap f order) s = .next (lineGap f order s) :=
  congrArg Host.Outcome.next (event_of_quiet (noneWaits_lineGap f order) quiet)

theorem exec_lineRecordGap_of_awake (awake : s.awake = true) (f : Feed) (order : List Part) :
    exec (.lineRecordGap f order) s = .next (finish (lineGap f order s)) :=
  congrArg Host.Outcome.next (event_of_awake _ _ awake)

theorem exec_frameBoundary_of_awake (awake : s.awake = true) (f : Feed) (period : Time) (order : List Part) :
    exec (.frameBoundary f period order) s = .next (finish (frameMark f period order s)) :=
  congrArg Host.Outcome.next (feedEvent_of_awake _ _ awake)

theorem lossStart_marked (c : Option Format) : lossStart f c (marked f s) = report .lockLost (.inputFeed f) (s.setFr f
    { s.fr.get f with lineCount := 1, state := .seeking, detected := none, candidate := c }) := by
  unfold lossStart
  rw [marked_fr, if_pos rfl]
  exact congrArg _ (setFr_setFr _ _ _ _)

/-! ## The cues at a loss of lock (R111) -/

theorem stopDomain_of_idle {u : State} (noFlight : u.ce.inFlight = none) :
    (stopDomain f u).cues = u.cues ∧ (stopDomain f u).ce.inFlight = none := by
  have halts := frame_halted f u
  have idle : (halted f u).ce.inFlight = none := by rw [halts.ce rfl, noFlight]
  have stop := frame_pathCheckStop (halted f u) f
  rw [stopDomain_eq, switchAt_of_idle idle, stop.cues rfl, stop.ce rfl, halts.cues rfl]
  exact ⟨rfl, idle⟩

/-- With no commit in flight a loss of lock counts a frame for the DUE cues exactly as its parts do. -/
theorem boundaryPart_loss_cues {p : Part} (of : OfLoss p) (other : p ≠ .dueCount) {u : State} (noFlight : u.ce.inFlight = none) :
    (boundaryPart f fm p u).cues = u.cues ∧ (boundaryPart f fm p u).ce.inFlight = none := by
  obtain rfl | rfl | rfl := of
  · exact ⟨(frame_leaveLocked u f).cues rfl, (congrArg Engine.inFlight ((frame_leaveLocked u f).ce rfl)).trans noFlight⟩
  · have stops : boundaryPart f fm .stop u = stopDomain f u := rfl
    rw [stops]
    exact stopDomain_of_idle noFlight
  · exact absurd rfl other

theorem walk_loss_cues {l : List Part} (of : ∀ p ∈ l, OfLoss p ∧ p ≠ .dueCount) {u : State} (noFlight : u.ce.inFlight = none) :
    (walk l (boundaryPart f fm) u).cues = u.cues ∧ (walk l (boundaryPart f fm) u).ce.inFlight = none :=
  walk_holds (P := fun v => v.cues = u.cues ∧ v.ce.inFlight = none) l (fun p mem _ h => by
    obtain ⟨cues, idle⟩ := boundaryPart_loss_cues (f := f) (fm := fm) (of p mem).1 (of p mem).2 h.2
    exact ⟨cues.trans h.1, idle⟩) u ⟨rfl, noFlight⟩

theorem count_dueCount_lossParts (st : FrState) : (lossParts st).count .dueCount = 0 := by cases st <;> decide

theorem loseLock_cues_of_gap (noFlight : s.ce.inFlight = none) (c : Option Format) :
    (loseLock f fm c order [] s).cues = s.cues := by
  have perm := schedule_perm order (lossParts (s.fr.get f).state ++ [])
  have noDue : Part.dueCount ∉ schedule order (lossParts (s.fr.get f).state ++ []) := by
    rw [perm.mem_iff, List.append_nil]
    exact List.count_eq_zero.1 (count_dueCount_lossParts _)
  have of : ∀ p ∈ schedule order (lossParts (s.fr.get f).state ++ []), OfLoss p ∧ p ≠ .dueCount := fun p mem =>
    ⟨ofLoss_of_mem (extra := []) nofun (perm.mem_iff.1 mem), fun same : p = .dueCount => noDue (same ▸ mem)⟩
  have begun := besideStop_lossStart f c s
  rw [loseLock_eq, (walk_loss_cues of ((congrArg Engine.inFlight begun.ce).trans noFlight)).1]
  exact (frame_report _ _ _).cues rfl

theorem loseLock_cues_of_boundary (noFlight : s.ce.inFlight = none) (c : Option Format) :
    (loseLock f fm c order [.dueCount] s).cues = (countDue f s).cues := by
  have perm := schedule_perm order (lossParts (s.fr.get f).state ++ [Part.dueCount])
  have once : (lossParts (s.fr.get f).state ++ [Part.dueCount]).count .dueCount = 1 := by
    rw [List.count_append, count_dueCount_lossParts]
    rfl
  obtain ⟨pre, post, split, sides⟩ := exists_split (a := Part.dueCount) perm once
  have of : ∀ p : Part, p ∈ pre ∨ p ∈ post → OfLoss p ∧ p ≠ .dueCount := fun p side =>
    (sides p side).imp_left (ofLoss_of_mem fun _ mem => List.mem_singleton.1 mem)
  have begun := besideStop_lossStart f c s
  obtain ⟨before, idle⟩ := walk_loss_cues (f := f) (fm := fm) (fun p mem => of p (Or.inl mem))
    ((congrArg Engine.inFlight begun.ce).trans noFlight)
  rw [loseLock_eq, split, walk_append, walk_cons]
  refine (walk_loss_cues (fun p mem => of p (Or.inr mem)) (by exact idle)).1.trans ?_
  refine (congrArg (Table.map _) before).trans ?_
  rw [lossStart, (frame_report _ _ _).cues rfl]
  rfl

end

/-- Settles O19: the parts by their rules, the events by the branches above, and the loss of lock by its walk. -/
theorem lockIsLost : Obligations.LockIsLost := by
  unfold Obligations.LockIsLost
  refine ⟨fun f fm s => ?parts, fun f fm period order s awake => ?awake, fun f fm period order s quiet => ?quiet⟩
  case parts =>
    refine ⟨rfl, leaveLocked_tpt f s, leaveLocked_tracks f s, fun q => ?_, leaveLocked_eq f s⟩
    change (((leaveLocked f s).fr.get f).quads.get q) = _
    rw [leaveLocked_fr, if_pos rfl]
    exact Table.get_map _ _ _
  case awake =>
    intro r parts lost running detected
    refine ⟨fun opened mismatch => ?_, ?_⟩
    · rw [exec_frameBoundary_of_awake awake, frameMark_of_lost running detected opened mismatch, loseLock_eq, lossStart_marked,
        marked_fr, if_pos rfl]
      rfl
    · rw [exec_lineRecordGap_of_awake awake, lineGap_of_running running detected, loseLock_eq, List.append_nil]
      rfl
  case quiet =>
    have one := oneCommand_of_quiet quiet
    refine ⟨fun running detected => ⟨fun opened mismatch => ?_, ?_⟩, fun stopped => ?_⟩
    · refine ⟨_, exec_frameBoundary_of_quiet quiet f period order, ?_, fun noFlight => ?_⟩ <;>
        rw [frameMark_of_lost running detected opened mismatch]
      · exact lostLock_loseLock one (countsOnly_marked f s) fm _ order fun _ mem => List.mem_singleton.1 mem
      · exact loseLock_cues_of_boundary (s := marked f s) noFlight _
    · refine ⟨_, exec_lineRecordGap_of_quiet quiet f order, ?_, fun noFlight => ?_⟩ <;>
        rw [lineGap_of_running running detected]
      · exact lostLock_loseLock one (CountsOnly.refl f s) fm none order nofun
      · exact loseLock_cues_of_gap noFlight _
    · rw [exec_lineRecordGap_of_quiet quiet, lineGap_of_stopped stopped]

end Machine
end Sys2Proof
end

section
/-! PROOF. O22: what SET FEED makes of a feed (R7, R15, R17, R53, R102, R139): the enabled FR by its state, and the disabled one. -/

namespace Sys2Proof
namespace Machine

/-! ## SET FEED with enable 1 -/

/-- The expected format agrees with what the FR has detected (R17). -/
def Agrees (expected : Option Format) (r : Receiver) : Prop := expected = none ∨ expected = r.detected

section
variable {f : Feed} {expected : Option Format} {settle : Nat} {s : State}

/-- FR f with the new settings, in state st (R17). -/
def setFeedIn (f : Feed) (enable : Bool) (expected : Option Format) (settle : Nat) (st : FrState) (s : State) : State :=
  s.setFr f { (s.fr.get f).stored enable expected settle with state := st }

theorem setFeedIn_fr (enable : Bool) (st : FrState) (g : Feed) : (setFeedIn f enable expected settle st s).fr.get g =
    if f = g then { (s.fr.get f).stored enable expected settle with state := st } else s.fr.get g := setFr_get _ _ _ _

theorem stored_self {enable : Bool} {st : FrState} (h : (s.fr.get f).state = st) :
    s.setFr f ((s.fr.get f).stored enable expected settle) = setFeedIn f enable expected settle st s := by
  unfold setFeedIn
  rw [← h]
  rfl

theorem setFeedTo_enabled (st : FrState) (h : (s.fr.get f).state = st) :
    setFeedTo f true expected settle s = enableFeed f (setFeedIn f true expected settle st s) := by
  rw [setFeedTo_eq, if_pos rfl, stored_self h]

theorem enableFeed_seeking : enableFeed f (setFeedIn f true expected settle .seeking s) = setFeedIn f true expected settle .seeking s := by
  unfold enableFeed
  dsimp only
  rw [setFeedIn_fr, if_pos rfl]

/-- SET FEED from OFF: SEEKING, with nothing found yet (R17). -/
theorem setFeedTo_of_off (off : (s.fr.get f).state = .off) : setFeedTo f true expected settle s = s.setFr f
    { (s.fr.get f).stored true expected settle with state := .seeking, candidate := none, frameOpen := false } := by
  rw [setFeedTo_enabled .off off]
  unfold enableFeed
  dsimp only
  rw [setFeedIn_fr, if_pos rfl]
  exact setFr_setFr _ _ _ _

theorem setFeedTo_of_seeking (seeking : (s.fr.get f).state = .seeking) :
    setFeedTo f true expected settle s = setFeedIn f true expected settle .seeking s := by
  rw [setFeedTo_enabled .seeking seeking, enableFeed_seeking]

/-- SET FEED that agrees with the detected format of an FR that settles, or stands in WRONG FORMAT: it settles anew (R17). -/
theorem setFeedTo_of_settles (state : (s.fr.get f).state = .settling ∨ (s.fr.get f).state = .wrongFormat)
    (agrees : Agrees expected (s.fr.get f)) : setFeedTo f true expected settle s = s.setFr f
      { (s.fr.get f).stored true expected settle with state := .settling, settleRemaining := settle } := by
  rcases state with settling | wrong
  · rw [setFeedTo_enabled .settling settling]
    unfold enableFeed
    dsimp only
    rw [setFeedIn_fr, if_pos rfl]
    exact (if_pos agrees).trans (setFr_setFr _ _ _ _)
  · rw [setFeedTo_enabled .wrongFormat wrong]
    unfold enableFeed
    dsimp only
    rw [setFeedIn_fr, if_pos rfl]
    exact (if_pos agrees).trans (setFr_setFr _ _ _ _)

theorem setFeedTo_of_locked (locked : (s.fr.get f).state = .locked) (agrees : Agrees expected (s.fr.get f)) :
    setFeedTo f true expected settle s = setFeedIn f true expected settle .locked s := by
  rw [setFeedTo_enabled .locked locked]
  unfold enableFeed
  dsimp only
  rw [setFeedIn_fr, if_pos rfl]
  exact if_pos agrees

theorem setFeedTo_of_wrong (wrong : (s.fr.get f).state = .wrongFormat) (differs : ¬Agrees expected (s.fr.get f)) :
    setFeedTo f true expected settle s = setFeedIn f true expected settle .wrongFormat s := by
  rw [setFeedTo_enabled .wrongFormat wrong]
  unfold enableFeed
  dsimp only
  rw [setFeedIn_fr, if_pos rfl]
  exact if_neg differs

/-- FR f with the new settings in WRONG FORMAT, and FORMAT MISMATCH recorded (R17). -/
def mismatched (f : Feed) (expected : Option Format) (settle : Nat) (s : State) : State :=
  report .formatMismatch (.inputFeed f) (setFeedIn f true expected settle .wrongFormat s)

theorem toWrongFormat_setFeedIn (st : FrState) :
    toWrongFormat f (setFeedIn f true expected settle st s) = mismatched f expected settle s := by
  unfold toWrongFormat mismatched
  rw [setFeedIn_fr, if_pos rfl]
  exact congrArg _ (setFr_setFr _ _ _ _)

theorem setFeedTo_of_settling_mismatch (settling : (s.fr.get f).state = .settling) (differs : ¬Agrees expected (s.fr.get f)) :
    setFeedTo f true expected settle s = mismatched f expected settle s := by
  rw [setFeedTo_enabled .settling settling, ← toWrongFormat_setFeedIn .settling]
  unfold enableFeed
  dsimp only
  rw [setFeedIn_fr, if_pos rfl]
  exact if_neg differs

theorem setFeedTo_of_locked_mismatch (locked : (s.fr.get f).state = .locked) (differs : ¬Agrees expected (s.fr.get f)) :
    setFeedTo f true expected settle s = leaveLocked f (mismatched f expected settle s) := by
  rw [setFeedTo_enabled .locked locked, ← toWrongFormat_setFeedIn .locked]
  unfold enableFeed
  dsimp only
  rw [setFeedIn_fr, if_pos rfl]
  exact if_neg differs

/-! ## SET FEED with enable 0 -/

/-- FR f with the new settings, OFF and with nothing found (R17). -/
def switchedOff (f : Feed) (expected : Option Format) (settle : Nat) (s : State) : State := s.setFr f
  { (s.fr.get f).stored false expected settle with state := .off, detected := none, candidate := none, frameOpen := false }

theorem setFeedTo_disabled (st : FrState) (h : (s.fr.get f).state = st) :
    setFeedTo f false expected settle s = disableFeed f (setFeedIn f false expected settle st s) := by
  rw [setFeedTo_eq, if_neg Bool.false_ne_true, stored_self h]

theorem switchedOff_eq (st : FrState) : (setFeedIn f false expected settle st s).setFr f
    { (setFeedIn f false expected settle st s).fr.get f with state := .off, detected := none, candidate := none, frameOpen := false } =
      switchedOff f expected settle s := by
  rw [setFeedIn_fr, if_pos rfl]
  exact setFr_setFr _ _ _ _

theorem setFeedTo_of_off_disabled (off : (s.fr.get f).state = .off) :
    setFeedTo f false expected settle s = setFeedIn f false expected settle .off s := by
  rw [setFeedTo_disabled .off off]
  unfold disableFeed
  dsimp only
  rw [setFeedIn_fr, if_pos rfl]

theorem setFeedTo_of_seeking_disabled (seeking : (s.fr.get f).state = .seeking) :
    setFeedTo f false expected settle s = switchedOff f expected settle s := by
  rw [setFeedTo_disabled .seeking seeking, ← switchedOff_eq .seeking]
  unfold disableFeed
  dsimp only
  rw [setFeedIn_fr, if_pos rfl]

theorem setFeedTo_of_running_disabled (state : (s.fr.get f).state = .settling ∨ (s.fr.get f).state = .wrongFormat) :
    setFeedTo f false expected settle s = stopDomain f (switchedOff f expected settle s) := by
  rcases state with settling | wrong
  · rw [setFeedTo_disabled .settling settling, ← switchedOff_eq .settling]
    unfold disableFeed
    dsimp only
    rw [setFeedIn_fr, if_pos rfl]
  · rw [setFeedTo_disabled .wrongFormat wrong, ← switchedOff_eq .wrongFormat]
    unfold disableFeed
    dsimp only
    rw [setFeedIn_fr, if_pos rfl]

theorem setFeedTo_of_locked_disabled (locked : (s.fr.get f).state = .locked) :
    setFeedTo f false expected settle s = stopDomain f (leaveLocked f (switchedOff f expected settle s)) := by
  rw [setFeedTo_disabled .locked locked, ← switchedOff_eq .locked]
  unfold disableFeed
  dsimp only
  rw [setFeedIn_fr, if_pos rfl]

end

end Machine
end Sys2Proof
end

section
/-! PROOF. O22: SET FEED (R7, R15, R17, R53, R102, R139). -/

namespace Sys2Proof
namespace Machine

/-! ## The enabled feed -/

section
variable {f : Feed} {expected : Option Format} {settle : Nat} {s : State}

/-- The enabled FR holds the new settings. -/
def HoldsSettings (enable : Bool) (expected : Option Format) (settle : Nat) (r : Receiver) : Prop :=
  r.enabled = enable ∧ r.expected = expected ∧ r.settleFrames = settle

theorem frame_setFeedIn (enable : Bool) (st : FrState) : Frame { fr := true } s (setFeedIn f enable expected settle st s) :=
  frame_setFr s f _

theorem frame_mismatched : Frame { fr := true, log := true, mgmt := true } s (mismatched f expected settle s) :=
  ((frame_setFr s f _).mono).trans ((frame_report _ _ _).mono)

theorem mismatched_fr (g : Feed) : (mismatched f expected settle s).fr.get g =
    if f = g then { (s.fr.get f).stored true expected settle with state := .wrongFormat } else s.fr.get g := by
  unfold mismatched
  rw [(frame_report _ _ _).fr rfl, setFeedIn_fr]

theorem mismatched_sameExecutor : SameExecutor s (mismatched f expected settle s) :=
  SameExecutor.trans (.of_frame (frame_setFeedIn true .wrongFormat)) (.of_told (told_report _ _ _))

theorem mismatched_log : (mismatched f expected settle s).log = (report .formatMismatch (.inputFeed f) s).log :=
  report_log_congr _ _ rfl rfl rfl

/-- What SET FEED with enable 1 comes to: the FR alone changes, or it goes to WRONG FORMAT, from LOCKED with the effects of leaving it. -/
theorem setFeedTo_enabled_cases (f : Feed) (expected : Option Format) (settle : Nat) (s : State) :
    (((s.fr.get f).state ≠ .locked ∨ Agrees expected (s.fr.get f)) ∧
      ((∃ r', setFeedTo f true expected settle s = s.setFr f r' ∧ HoldsSettings true expected settle r') ∨
        setFeedTo f true expected settle s = mismatched f expected settle s)) ∨
    (((s.fr.get f).state = .locked ∧ ¬Agrees expected (s.fr.get f)) ∧
      setFeedTo f true expected settle s = leaveLocked f (mismatched f expected settle s)) := by
  have held : HoldsSettings true expected settle ((s.fr.get f).stored true expected settle) := ⟨rfl, rfl, rfl⟩
  by_cases agrees : Agrees expected (s.fr.get f)
  · refine Or.inl ⟨Or.inr agrees, Or.inl ?_⟩
    cases state : (s.fr.get f).state with
    | off => exact ⟨_, setFeedTo_of_off state, held⟩
    | seeking => exact ⟨_, setFeedTo_of_seeking state, held⟩
    | settling => exact ⟨_, setFeedTo_of_settles (Or.inl state) agrees, held⟩
    | locked => exact ⟨_, setFeedTo_of_locked state agrees, held⟩
    | wrongFormat => exact ⟨_, setFeedTo_of_settles (Or.inr state) agrees, held⟩
  · cases state : (s.fr.get f).state with
    | off => exact Or.inl ⟨Or.inl nofun, Or.inl ⟨_, setFeedTo_of_off state, held⟩⟩
    | seeking => exact Or.inl ⟨Or.inl nofun, Or.inl ⟨_, setFeedTo_of_seeking state, held⟩⟩
    | settling => exact Or.inl ⟨Or.inl nofun, Or.inr (setFeedTo_of_settling_mismatch state agrees)⟩
    | locked => exact Or.inr ⟨⟨rfl, agrees⟩, setFeedTo_of_locked_mismatch state agrees⟩
    | wrongFormat => exact Or.inl ⟨Or.inl nofun, Or.inl ⟨_, setFeedTo_of_wrong state agrees, held⟩⟩

theorem setFeedTo_enabled_frame : Frame { fr := true, log := true, mgmt := true, tpt := true, watch := true } s
    (setFeedTo f true expected settle s) := by
  rcases setFeedTo_enabled_cases f expected settle s with ⟨-, ⟨r', e, -⟩ | e⟩ | ⟨-, e⟩ <;> rw [e]
  · exact (frame_setFr s f r').mono
  · exact frame_mismatched.mono
  · exact (frame_mismatched.mono).trans ((frame_leaveLocked _ f).mono)

theorem setFeedTo_enabled_sameExecutor : SameExecutor s (setFeedTo f true expected settle s) := by
  rcases setFeedTo_enabled_cases f expected settle s with ⟨-, ⟨r', e, -⟩ | e⟩ | ⟨-, e⟩ <;> rw [e]
  · exact .of_frame (frame_setFr s f r')
  · exact mismatched_sameExecutor
  · exact mismatched_sameExecutor.trans (.of_frame (frame_leaveLocked _ f))

theorem setFeedTo_enabled_fr : HoldsSettings true expected settle ((setFeedTo f true expected settle s).fr.get f) ∧
    ∀ g, g ≠ f → (setFeedTo f true expected settle s).fr.get g = s.fr.get g := by
  rcases setFeedTo_enabled_cases f expected settle s with ⟨-, ⟨r', e, held⟩ | e⟩ | ⟨-, e⟩ <;> rw [e]
  · exact ⟨by rw [setFr_get, if_pos rfl]; exact held, fun g other => (setFr_get _ _ _ _).trans (if_neg (Ne.symm other))⟩
  · exact ⟨by rw [mismatched_fr, if_pos rfl]; exact ⟨rfl, rfl, rfl⟩,
      fun g other => (mismatched_fr g).trans (if_neg (Ne.symm other))⟩
  · refine ⟨by rw [leaveLocked_fr, if_pos rfl, mismatched_fr, if_pos rfl]; exact ⟨rfl, rfl, rfl⟩, fun g other => ?_⟩
    rw [leaveLocked_fr, if_neg (Ne.symm other), mismatched_fr, if_neg (Ne.symm other)]

/-- Where SET FEED with enable 1 does not leave LOCKED, the take points and the watched tracks stay (R17). -/
theorem setFeedTo_enabled_kept (stays : (s.fr.get f).state ≠ .locked ∨ Agrees expected (s.fr.get f)) :
    (setFeedTo f true expected settle s).tpt = s.tpt ∧ (setFeedTo f true expected settle s).watch = s.watch := by
  rcases setFeedTo_enabled_cases f expected settle s with ⟨-, ⟨r', e, -⟩ | e⟩ | ⟨⟨locked, differs⟩, -⟩
  · rw [e]
    exact ⟨rfl, rfl⟩
  · rw [e, frame_mismatched.tpt rfl, frame_mismatched.watch rfl]
    exact ⟨rfl, rfl⟩
  · exact absurd stays (not_or.2 ⟨not_not_intro locked, differs⟩)

/-- Leaving LOCKED from a state u that keeps the take points and the commit leaves LOCKED (R7, R53, R139). -/
theorem leftLocked_leaveLocked {u : State} (tpt : u.tpt = s.tpt) : LeftLocked f s (leaveLocked f u) := by
  obtain ⟨quads, tracks⟩ := trackingLeft_leaveLocked f u
  refine ⟨quads, tracks, fun _ i used on => Or.inl ?_⟩
  rw [leaveLocked_tpt, tpt, if_pos ⟨on, used⟩]

theorem setFeedTo_enabled_left (locked : (s.fr.get f).state = .locked) (differs : ¬Agrees expected (s.fr.get f)) :
    LeftLocked f s (setFeedTo f true expected settle s) ∧ ∀ i, (setFeedTo f true expected settle s).tpt.get i =
      if (s.tpt.get i).ring.val / 4 = f.val ∧ (s.tpt.get i).state ≠ .free then { s.tpt.get i with state := .starved }
      else s.tpt.get i := by
  have tpt : (mismatched f expected settle s).tpt = s.tpt := frame_mismatched.tpt rfl
  rw [setFeedTo_of_locked_mismatch locked differs]
  refine ⟨leftLocked_leaveLocked tpt, fun i => ?_⟩
  rw [leaveLocked_tpt, tpt]

/-- The states that SET FEED with enable 1 moves the FR to, and the log (R17). -/
theorem setFeedTo_enabled_moves (f : Feed) (expected : Option Format) (settle : Nat) (s : State) :
    let r := s.fr.get f
    let t := setFeedTo f true expected settle s
    let r' := t.fr.get f
    (r.state = .off → r'.state = .seeking ∧ r'.candidate = none ∧ r'.frameOpen = false) ∧
    (r.state = .seeking → r'.state = .seeking) ∧
    (r.state = .settling → Agrees expected r → r'.state = .settling ∧ r'.settleRemaining = settle) ∧
    (r.state = .locked → Agrees expected r → r'.state = .locked ∧ r'.quads = r.quads) ∧
    (r.state = .locked → ¬Agrees expected r → ∀ q, (r'.quads.get q).state = .unknown ∧ (r'.quads.get q).empty = 0) ∧
    (r.state = .settling ∨ r.state = .locked → ¬Agrees expected r → r'.state = .wrongFormat ∧
      t.log = (report .formatMismatch (.inputFeed f) s).log) ∧
    (r.state = .wrongFormat → Agrees expected r → r'.state = .settling ∧ r'.settleRemaining = settle) ∧
    (r.state = .wrongFormat → ¬Agrees expected r → r'.state = .wrongFormat) ∧
    (r.state = .off ∨ r.state = .seeking ∨ r.state = .wrongFormat ∨ Agrees expected r → t.log = s.log) := by
  have set (r' : Receiver) : (s.setFr f r').fr.get f = r' := (setFr_get _ _ _ _).trans (if_pos rfl)
  refine ⟨fun off => ?_, fun seeking => ?_, fun settling agrees => ?_, fun locked agrees => ?_, fun locked differs => ?_,
    fun state differs => ?_, fun wrong agrees => ?_, fun wrong differs => ?_, fun quiet => ?_⟩
  · rw [setFeedTo_of_off off, set]
    exact ⟨rfl, rfl, rfl⟩
  · rw [setFeedTo_of_seeking seeking, setFeedIn, set]
  · rw [setFeedTo_of_settles (Or.inl settling) agrees, set]
    exact ⟨rfl, rfl⟩
  · rw [setFeedTo_of_locked locked agrees, setFeedIn, set]
    exact ⟨rfl, rfl⟩
  · exact (setFeedTo_enabled_left locked differs).1.1
  · rcases state with settling | locked
    · rw [setFeedTo_of_settling_mismatch settling differs, mismatched_fr, if_pos rfl]
      exact ⟨rfl, mismatched_log⟩
    · rw [setFeedTo_of_locked_mismatch locked differs, leaveLocked_fr, if_pos rfl, mismatched_fr, if_pos rfl,
        (frame_leaveLocked _ f).log rfl]
      exact ⟨rfl, mismatched_log⟩
  · rw [setFeedTo_of_settles (Or.inr wrong) agrees, set]
    exact ⟨rfl, rfl⟩
  · rw [setFeedTo_of_wrong wrong differs, setFeedIn, set]
  · rcases quiet with off | seeking | wrong | agrees
    · rw [setFeedTo_of_off off]
      rfl
    · rw [setFeedTo_of_seeking seeking]
      rfl
    · by_cases agrees : Agrees expected (s.fr.get f)
      · rw [setFeedTo_of_settles (Or.inr wrong) agrees]
        rfl
      · rw [setFeedTo_of_wrong wrong agrees]
        rfl
    · cases state : (s.fr.get f).state with
      | off =>
        rw [setFeedTo_of_off state]
        rfl
      | seeking =>
        rw [setFeedTo_of_seeking state]
        rfl
      | settling =>
        rw [setFeedTo_of_settles (Or.inl state) agrees]
        rfl
      | locked =>
        rw [setFeedTo_of_locked state agrees]
        rfl
      | wrongFormat =>
        rw [setFeedTo_of_settles (Or.inr state) agrees]
        rfl

end

/-! ## The disabled feed -/

section
variable {f : Feed} {expected : Option Format} {settle : Nat} {s : State}

/-- The state in which the domain of a running feed stops as SET FEED disables it (R7, R17). -/
def offBeforeStop (f : Feed) (expected : Option Format) (settle : Nat) (s : State) : State :=
  if (s.fr.get f).state = .locked then leaveLocked f (switchedOff f expected settle s) else switchedOff f expected settle s

theorem setFeedTo_of_running (running : runningState (s.fr.get f).state = true) :
    setFeedTo f false expected settle s = stopDomain f (offBeforeStop f expected settle s) := by
  unfold offBeforeStop
  cases state : (s.fr.get f).state with
  | off | seeking =>
    rw [state] at running
    cases running
  | settling => exact setFeedTo_of_running_disabled (Or.inl state)
  | locked => exact setFeedTo_of_locked_disabled state
  | wrongFormat => exact setFeedTo_of_running_disabled (Or.inr state)

theorem offBeforeStop_of_locked (locked : (s.fr.get f).state = .locked) :
    offBeforeStop f expected settle s = leaveLocked f (switchedOff f expected settle s) := if_pos locked

theorem frame_offBeforeStop : Frame { fr := true, tpt := true, watch := true } s (offBeforeStop f expected settle s) :=
  have off := frame_setFr s f
    { (s.fr.get f).stored false expected settle with state := .off, detected := none, candidate := none, frameOpen := false }
  Frame.ite ((off.mono).trans ((frame_leaveLocked _ f).mono)) (off.mono)

/-- A disabled FR: OFF, with the new settings; and from another state with nothing found (R17). -/
def DisabledFrom (expected : Option Format) (settle : Nat) (r r' : Receiver) : Prop :=
  HoldsSettings false expected settle r' ∧ r'.state = .off ∧ (r.state ≠ .off → r'.detected = none ∧ r'.candidate = none)

theorem offBeforeStop_fr : DisabledFrom expected settle (s.fr.get f) ((offBeforeStop f expected settle s).fr.get f) ∧
    ∀ g, g ≠ f → (offBeforeStop f expected settle s).fr.get g = s.fr.get g := by
  have off (g : Feed) : (switchedOff f expected settle s).fr.get g = _ := setFr_get _ _ _ _
  unfold offBeforeStop
  split
  · refine ⟨?_, fun g other => ?_⟩
    · rw [leaveLocked_fr, if_pos rfl, off, if_pos rfl]
      exact ⟨⟨rfl, rfl, rfl⟩, rfl, fun _ => ⟨rfl, rfl⟩⟩
    · rw [leaveLocked_fr, if_neg (Ne.symm other), off, if_neg (Ne.symm other)]
  · refine ⟨?_, fun g other => ?_⟩
    · rw [off, if_pos rfl]
      exact ⟨⟨rfl, rfl, rfl⟩, rfl, fun _ => ⟨rfl, rfl⟩⟩
    · rw [off, if_neg (Ne.symm other)]

theorem setFeedTo_of_not_running (stopped : runningState (s.fr.get f).state = false) :
    ∃ r', setFeedTo f false expected settle s = s.setFr f r' ∧ DisabledFrom expected settle (s.fr.get f) r' := by
  cases state : (s.fr.get f).state with
  | off => exact ⟨_, setFeedTo_of_off_disabled state, ⟨rfl, rfl, rfl⟩, rfl, fun on => absurd state on⟩
  | seeking => exact ⟨_, setFeedTo_of_seeking_disabled state, ⟨rfl, rfl, rfl⟩, rfl, fun _ => ⟨rfl, rfl⟩⟩
  | settling | locked | wrongFormat =>
    rw [state] at stopped
    cases stopped

theorem setFeedTo_disabled_fr : DisabledFrom expected settle (s.fr.get f) ((setFeedTo f false expected settle s).fr.get f) ∧
    ∀ g, g ≠ f → (setFeedTo f false expected settle s).fr.get g = s.fr.get g := by
  cases running : runningState (s.fr.get f).state with
  | true =>
    rw [setFeedTo_of_running running, stopDomain_fr]
    exact offBeforeStop_fr
  | false =>
    obtain ⟨r', e, from'⟩ := setFeedTo_of_not_running (expected := expected) (settle := settle) running
    rw [e]
    exact ⟨by rw [setFr_get, if_pos rfl]; exact from', fun g other => (setFr_get _ _ _ _).trans (if_neg (Ne.symm other))⟩

theorem setFeedTo_disabled_rings : (setFeedTo f false expected settle s).rings = s.rings := by
  cases running : runningState (s.fr.get f).state with
  | true => rw [setFeedTo_of_running running, stopDomain_rings, frame_offBeforeStop.rings rfl]
  | false =>
    obtain ⟨r', e, -⟩ := setFeedTo_of_not_running (expected := expected) (settle := settle) running
    rw [e]
    rfl

theorem setFeedTo_disabled_left (locked : (s.fr.get f).state = .locked) :
    LeftLocked f s (setFeedTo f false expected settle s) := by
  have running : runningState (s.fr.get f).state = true := by rw [locked]; rfl
  rw [setFeedTo_of_running running, offBeforeStop_of_locked locked]
  obtain ⟨quads, tracks, records⟩ := leftLocked_leaveLocked (f := f) (s := s) (u := switchedOff f expected settle s) rfl
  have left := frame_leaveLocked (switchedOff f expected settle s) f
  obtain ⟨quads, tracks⟩ := TrackingLeft.congr ⟨quads, tracks⟩ (stopDomain_fr f _) ((frame_stopDomain _ f).watch rfl)
  refine ⟨quads, tracks, fun behind i used on => ?_⟩
  have behind' : NoneBehind (leaveLocked f (switchedOff f expected settle s)) := NoneBehind.congr (s := s) behind (left.ce rfl)
  rcases (behind'.stopDomain f).1 i with free | ⟨state, -⟩
  · exact Or.inr free
  · rw [state]
    exact records behind i used on

theorem setFeedTo_disabled_stopped (one : OneCommand s) (running : runningState (s.fr.get f).state = true) :
    DomainStopped f s (setFeedTo f false expected settle s) := by
  rw [setFeedTo_of_running running]
  exact domainStopped_among one (.of_frame frame_offBeforeStop) (BesideStop.refl _) (SameUses.refl _)

/-- With no commit in flight a stop changes no other output feed, and nothing of the log. -/
theorem stopDomain_idle_rest {u : State} (noFlight : u.ce.inFlight = none) :
    (∀ g, g ≠ f → (stopDomain f u).fmt.get g = u.fmt.get g) ∧ (stopDomain f u).log = u.log := by
  have halts := frame_halted f u
  have stop := frame_pathCheckStop (halted f u) f
  rw [stopDomain_eq, switchAt_of_idle (by rw [halts.ce rfl, noFlight]), stop.log rfl, halts.log rfl, stop.fmt rfl, halted_fmt]
  exact ⟨fun g other => Table.get_set_other _ _ _ _ (Ne.symm other), rfl⟩

theorem setFeedTo_disabled_idle (noFlight : s.ce.inFlight = none) :
    (∀ g, g ≠ f → (setFeedTo f false expected settle s).fmt.get g = s.fmt.get g) ∧
      (setFeedTo f false expected settle s).log = s.log := by
  cases running : runningState (s.fr.get f).state with
  | true =>
    have off := frame_offBeforeStop (f := f) (expected := expected) (settle := settle) (s := s)
    obtain ⟨fmt, log⟩ := stopDomain_idle_rest (f := f) (u := offBeforeStop f expected settle s) (by rw [off.ce rfl, noFlight])
    rw [setFeedTo_of_running running, log, off.log rfl]
    refine ⟨fun g other => ?_, rfl⟩
    rw [fmt g other, off.fmt rfl]
  | false =>
    obtain ⟨r', e, -⟩ := setFeedTo_of_not_running (expected := expected) (settle := settle) running
    rw [e]
    exact ⟨fun _ _ => rfl, rfl⟩

/-- Where no command is in flight the stop leaves the executor alone. -/
theorem setFeedTo_disabled_sameExecutor (noCommand : NoCommandRequests s) (idle : s.pc.state = .idle) :
    SameExecutor s (setFeedTo f false expected settle s) := by
  cases running : runningState (s.fr.get f).state with
  | true =>
    have off := frame_offBeforeStop (f := f) (expected := expected) (settle := settle) (s := s)
    have none : NoCommandRequests (offBeforeStop f expected settle s) := by
      unfold NoCommandRequests
      rw [off.ce rfl]
      exact noCommand
    rw [setFeedTo_of_running running, stopDomain_eq, pathCheckStop_of_not (Or.inl (by rw [stopSwitch_pc, off.pc rfl, idle]))]
    exact (SameExecutor.of_frame off).trans (stopSwitch_sameExecutor f none)
  | false =>
    obtain ⟨r', e, -⟩ := setFeedTo_of_not_running (expected := expected) (settle := settle) running
    rw [e]
    exact .of_frame (frame_setFr s f r')

end

end Machine
end Sys2Proof
end

section
/-! PROOF. O22: SET FEED (R7, R15, R17, R53, R102, R139). -/

namespace Sys2Proof
namespace Machine

/-! ## The part in which a command is judged -/

theorem judging_eq {s : State} (awake : s.awake = true) (c : Command) : s.judging c = s.setMgmt
    { s.mgmt.restarted (rateOf s.ru.format) with queue := [c], cx := .executing } := by
  unfold State.judging
  rw [restartTimer_eq (silenceDue_of_awake awake)]
  rfl

/-- In a ready part no command is in flight: the PC is IDLE, and no request with the CE is a command's (R164). -/
theorem noneInFlight_of_ready {s : State} (h : s.ready = true) : s.pc.state = .idle ∧ NoCommandRequests s := by
  obtain ⟨-, idle, fits⟩ := (ready_iff s).1 h
  obtain ⟨cx, -⟩ := (idleExecutor_iff s).1 idle
  unfold State.flightFits at fits
  rw [cx] at fits
  have none : s.commandsInFlight = 0 := beq_iff_eq.1 fits
  rw [commandsInFlight_eq] at none
  refine ⟨?_, fun r mem => Bool.eq_false_iff.2 (List.countP_eq_zero.1 (by omega) r mem)⟩
  by_contra busy
  rw [if_neg busy] at none
  omega

/-- A part whose queue has been emptied and whose CX is IDLE. -/
def emptied (s : State) : State := s.setMgmt { s.mgmt with queue := [], cx := .idle }

/-- A stop in the part that judges a command is the stop in the ready part: no command is in flight in it. -/
theorem DomainStopped.of_judging {f : Feed} {s u : State} {m m' : Management} (idle : s.pc.state = .idle)
    (noCommand : NoCommandRequests s) (h : DomainStopped f (s.setMgmt m) u) : DomainStopped f s (u.setMgmt m') := by
  obtain ⟨phase, marks, checked, mismatch, switches, pc, -⟩ := h
  refine ⟨phase, marks, checked, mismatch, fun c flight waiting not => ?_, ?_, fun busy => absurd idle busy⟩
  · obtain ⟨entries, modes, left, last, -⟩ := switches c flight waiting not
    refine ⟨entries, modes, left, last, fun _ b q command => ?_⟩
    have none := noCommand c.requester (by rw [requests_of_some flight]; exact List.mem_cons_self)
    rw [command] at none
    cases none
  · have same : (u.setMgmt m').pc = u.pc := rfl
    rw [same, pc, pathCheckStop_pc, pathCheckStop_pc]
    rfl

/-! ## The command -/

/-- The argument words of SET FEED for these settings (R17). -/
def feedArgs (f : Feed) (enable : Bool) (expected : Option Format) (settle : Fin 16) : List Word :=
  [numWord f.val, flagWord enable, formatWord expected, numWord settle.val]

section
variable {f : Feed} {enable : Bool} {expected : Option Format} {settle : Fin 16} {s : State}

theorem actSetFeed_of_settings : actSetFeed (feedArgs f enable expected settle) s =
    if enable = false ∧ f = s.mgmt.controlFeed then refusedArgument s
    else .answered .done (feedWords (setFeedTo f enable expected settle.val s) f) (setFeedTo f enable expected settle.val s) := by
  unfold actSetFeed feedArgs
  dsimp only
  rw [index?_numWord 8 (by decide) f, flag?_flagWord, expectedArg?_formatWord, index?_numWord 16 (by decide) settle]

theorem actSetFeed_of_range {a b c d : Word} (h : 8 ≤ a.toNat ∨ 2 ≤ b.toNat ∨ (11 ≤ c.toNat ∧ c ≠ 255) ∨ 16 ≤ d.toNat)
    (s : State) : actSetFeed [a, b, c, d] s = refusedArgument s := by
  unfold actSetFeed
  dsimp only
  split
  · rename_i f enable expected settle first second third fourth
    rcases h with h | h | ⟨h, notNone⟩ | h
    · rw [index?_none h] at first
      cases first
    · rw [flag?_none h] at second
      cases second
    · rw [expectedArg?_none h notNone] at third
      cases third
    · rw [index?_none h] at fourth
      cases fourth
  · rfl

theorem setFeedTo_sameExecutor (noCommand : NoCommandRequests s) (idle : s.pc.state = .idle) :
    SameExecutor s (setFeedTo f enable expected settle.val s) := by
  cases enable with
  | true => exact setFeedTo_enabled_sameExecutor
  | false => exact setFeedTo_disabled_sameExecutor noCommand idle

/-- An accepted SET FEED: its effect in the part that judges it, and the answer with the words of READ FEED (R17). -/
theorem manageRow_setFeed (ready : s.ready = true) (tag : Byte) (allowed : ¬(enable = false ∧ f = s.mgmt.controlFeed)) :
    let u := setFeedTo f enable expected settle.val (s.judging ⟨tag, 1, feedArgs f enable expected settle⟩)
    manageRow 1 tag (feedArgs f enable expected settle) s = (emptied u).answering tag 1 .done (feedWords (emptied u) f) := by
  intro u
  have judged := judging_eq (awake_of_ready ready) ⟨tag, 1, feedArgs f enable expected settle⟩
  obtain ⟨idle, noCommand⟩ := noneInFlight_of_ready ready
  obtain ⟨-, -, discard, -⟩ := (idleExecutor_iff s).1 ((ready_iff s).1 ready).2.1
  have acts : actSetFeed (feedArgs f enable expected settle) (s.judging ⟨tag, 1, feedArgs f enable expected settle⟩) =
      .answered .done (feedWords u f) u := by
    rw [actSetFeed_of_settings]
    refine if_neg ?_
    rw [judged]
    exact allowed
  have same : SameExecutor (s.judging ⟨tag, 1, feedArgs f enable expected settle⟩) u :=
    setFeedTo_sameExecutor (by rw [judged]; exact noCommand) (by rw [judged]; exact idle)
  rw [manageRow_of_answered (code := 1) (tag := tag) (args := feedArgs f enable expected settle) (r := .setFeed) ready
    four_le_maxArgs rfl (by exact acts) (by rw [same.queue, judged]; rfl) (by rw [same.discard, judged]; exact discard)]
  rfl

end

/-- Settles O22: the refusals by the act, the rest by the enabled and the disabled feed in the part that judges the command. -/
theorem setFeedMovesReceiver : Obligations.SetFeedMovesReceiver := by
  unfold Obligations.SetFeedMovesReceiver
  intro tag f enable expected settle s ready r after refused
  have judged := judging_eq (awake_of_ready ready) ⟨tag, 1, feedArgs f enable expected settle⟩
  refine ⟨fun disable control => ?control, fun a b c d range => ?range, fun allowed => ?accepted⟩
  case control =>
    have acts : actSetFeed (feedArgs f enable expected settle) (s.judging ⟨tag, 1, feedArgs f enable expected settle⟩) =
        refusedArgument (s.judging ⟨tag, 1, feedArgs f enable expected settle⟩) := by
      rw [actSetFeed_of_settings]
      refine if_pos ⟨disable, ?_⟩
      rw [judged]
      exact control
    exact congrArg _ (manageRow_answers (code := 1) (r := .setFeed) (tag := tag) (args := feedArgs f enable expected settle) _
      BesideMgmt.id ready four_le_maxArgs rfl (by exact acts))
  case range => exact row_refused .setFeed (args := [a, b, c, d]) tag four_le_maxArgs (actSetFeed_of_range range) ready
  case accepted =>
    obtain ⟨idle, noCommand⟩ := noneInFlight_of_ready ready
    have notRefused : ¬(enable = false ∧ f = s.mgmt.controlFeed) := fun ⟨off, control⟩ =>
      allowed.elim (fun on => Bool.false_ne_true (off.symm.trans on)) fun other => other control
    refine ⟨_, congrArg _ (manageRow_setFeed ready tag notRefused), ?_⟩
    rw [judged]
    cases enable with
    | true =>
      generalize judgedAs : ({ s.mgmt.restarted (rateOf s.ru.format) with
        queue := [⟨tag, 1, feedArgs f true expected settle⟩], cx := .executing } : Management) = m
      have notice : m.notice = s.mgmt.notice := judgedAs ▸ rfl
      have frame := setFeedTo_enabled_frame (f := f) (expected := expected) (settle := settle.val) (s := s.setMgmt m)
      obtain ⟨⟨enabled, expects, settles⟩, others⟩ := setFeedTo_enabled_fr (f := f) (expected := expected) (settle := settle.val) (s := s.setMgmt m)
      have left := setFeedTo_enabled_left (f := f) (expected := expected) (settle := settle.val) (s := s.setMgmt m)
      have kept := setFeedTo_enabled_kept (f := f) (expected := expected) (settle := settle.val) (s := s.setMgmt m)
      have log : (report .formatMismatch (.inputFeed f) (s.setMgmt m)).log = (report .formatMismatch (.inputFeed f) s).log :=
        report_log_congr _ _ rfl notice rfl
      obtain ⟨off, seeking, settling, locked, unlocked, mismatch, again, stays, quiet⟩ :=
        setFeedTo_enabled_moves f expected settle.val (s.setMgmt m)
      rw [log] at mismatch
      refine ⟨enabled, expects, settles, frame.rings rfl, nofun, nofun,
        fun _ => ⟨frame.ramps rfl, frame.clips rfl, frame.cm rfl, frame.ce rfl, frame.active rfl, frame.fmt rfl, frame.cues rfl⟩,
        fun _ => left, fun _ => kept, fun g other => ⟨others g other, fun _ => congrArg (·.get g) (frame.fmt rfl)⟩, nofun,
        fun _ => ⟨congrArg (·.get f) (frame.fmt rfl), off, seeking, settling, locked, unlocked, mismatch, again, stays, quiet⟩⟩
    | false =>
      generalize ({ s.mgmt.restarted (rateOf s.ru.format) with
        queue := [⟨tag, 1, feedArgs f false expected settle⟩], cx := .executing } : Management) = m
      obtain ⟨⟨⟨enabled, expects, settles⟩, off, found⟩, others⟩ :=
        setFeedTo_disabled_fr (f := f) (expected := expected) (settle := settle.val) (s := s.setMgmt m)
      have left := setFeedTo_disabled_left (f := f) (expected := expected) (settle := settle.val) (s := s.setMgmt m)
      have stops := setFeedTo_disabled_stopped (f := f) (expected := expected) (settle := settle.val) (s := s.setMgmt m)
        (fun busy => absurd idle busy)
      have still := setFeedTo_disabled_idle (f := f) (expected := expected) (settle := settle.val) (s := s.setMgmt m)
      refine ⟨enabled, expects, settles, setFeedTo_disabled_rings (s := s.setMgmt m), fun _ => left,
        fun _ running => (stops running).of_judging idle noCommand, fun stopped => ?_, nofun, nofun,
        fun g other => ⟨others g other, fun none => (still (none.resolve_left nofun)).1 g other⟩,
        fun _ => ⟨off, found, fun none => (still none).2, fun running => (stops running).1⟩, nofun⟩
      obtain ⟨r', e, -⟩ := setFeedTo_of_not_running (f := f) (expected := expected) (settle := settle.val) (s := s.setMgmt m)
        (stopped.resolve_left nofun)
      have same : emptied (setFeedTo f false expected settle.val (s.setMgmt m)) = emptied ((s.setMgmt m).setFr f r') := congrArg emptied e
      rw [same]
      exact ⟨rfl, rfl, rfl, rfl, rfl, rfl, rfl⟩

end Machine
end Sys2Proof
end

section
/-! PROOF. The parts of a boundary that closes a matching frame, each beside the others (R6, R8, R10, R47, R64, R102, R111, R131, R136, R148). -/

namespace Sys2Proof
namespace Machine

/-! ## The uses of the records -/

section
variable {f : Feed}

theorem settleStep_of_counting {s : State} (counting : 1 < (s.fr.get f).settleRemaining) : settleStep f s =
    s.setFr f { s.fr.get f with settleRemaining := (s.fr.get f).settleRemaining - 1 } := if_neg (by omega)

theorem settleStep_of_last {s : State} (last : (s.fr.get f).settleRemaining ≤ 1) : settleStep f s =
    enterLocked f (s.setFr f { s.fr.get f with settleRemaining := (s.fr.get f).settleRemaining - 1 }) := if_pos (by omega)

theorem SameUses.of_frame {t : Touch} {s s' : State} (k : Frame t s s') (tpt : t.tpt = false := by rfl) : SameUses s.tpt s'.tpt := by
  rw [k.tpt tpt]
  exact SameUses.refl _

theorem sameUses_resets (f : Feed) (s : State) : SameUses s.tpt (enterLocked f s).tpt := fun i => by
  rw [enterLocked_tpt]
  exact TakePoint.sameUse_ite fun on => ⟨⟨nofun, fun free => absurd free on.2⟩, rfl, rfl, rfl, rfl⟩

theorem sameUses_leaveLocked (f : Feed) (s : State) : SameUses s.tpt (leaveLocked f s).tpt := fun i => by
  rw [leaveLocked_tpt]
  exact TakePoint.sameUse_ite fun on => ⟨⟨nofun, fun free => absurd free on.2⟩, rfl, rfl, rfl, rfl⟩

theorem sameUses_settleStep (f : Feed) (s : State) : SameUses s.tpt (settleStep f s).tpt := by
  rcases Nat.lt_or_ge 1 (s.fr.get f).settleRemaining with counting | last
  · rw [settleStep_of_counting counting]
    exact SameUses.refl _
  · rw [settleStep_of_last last]
    exact sameUses_resets f (s.setFr f _)

theorem sameUses_closeQuadFrame (f : Feed) (q : Quad) (s : State) : SameUses s.tpt (closeQuadFrame f q s).tpt := by
  rw [closeQuadFrame_eq]
  refine keeps_ite (P := fun t : State => SameUses s.tpt t.tpt) (fun i => ?_) (SameUses.refl _)
  rw [quadAbsent_tpt]
  exact TakePoint.sameUse_ite fun on => ⟨⟨nofun, fun free => absurd free on.2⟩, rfl, rfl, rfl, rfl⟩

theorem pathCheckBoundary_of_not {s : State} (h : s.pc.state = .idle ∨ s.pc.feed ≠ f) : pathCheckBoundary f s = s := by
  unfold pathCheckBoundary
  rcases h with idle | other
  · rw [idle]
    exact ite_self _
  · exact if_neg other

end

/-! ## The blocks each part changes -/

/-- The blocks that a part of a boundary changes. -/
def partTouch (p : Part) : Touch :=
  match p with
  | .takePoints => { tpt := true }
  | .switch => { tpt := true, ramps := true, fmt := true, active := true, ce := true, cues := true, log := true, mgmt := true }
  | .clips => { clips := true, log := true, mgmt := true }
  | .presence _ => { watch := true, log := true, mgmt := true }
  | .absence _ => { tpt := true, watch := true, fr := true }
  | .cadence _ => { fr := true, log := true, mgmt := true }
  | .dueCount => { cues := true }
  | .pathCheck => { pc := true, mgmt := true }
  | .settle => { rings := true, tpt := true, watch := true, fr := true }
  | .leaveLocked => { tpt := true, watch := true, fr := true }
  | .stop => { tpt := true, ramps := true, fmt := true, active := true, ce := true, cues := true, log := true, mgmt := true, clips := true, cm := true, pc := true }
  | .silence | .emission | .lineWrite _ | .lineOffer _ => {}

theorem boundaryPart_frame (f : Feed) (fm : Format) (p : Part) (s : State) : Frame (partTouch p) s (boundaryPart f fm p s) := by
  cases p with
  | takePoints => exact frame_judgeTakePoints s _
  | switch => exact frame_switchAt s _ _
  | clips => exact frame_handOverClips s _
  | presence t => exact frame_judgeFeedTrack s f t
  | absence q => exact frame_closeQuadFrame s f q
  | cadence q => exact frame_judgeCadence s f fm q
  | dueCount => exact frame_countDue s f
  | pathCheck => exact frame_pathCheckBoundary s f
  | settle => exact frame_settleStep s f
  | leaveLocked => exact frame_leaveLocked s f
  | stop => exact frame_stopDomain s f
  | silence | emission | lineWrite | lineOffer => exact Frame.refl _ s

/-- A part that judges one quad (R10, R47). -/
def OfQuad (p : Part) : Prop := ∃ q, p = .absence q ∨ p = .cadence q

section
variable {p : Part}

theorem partTouch_fr (notSettle : p ≠ .settle) (notLeave : p ≠ .leaveLocked) (notQuad : ¬OfQuad p) : (partTouch p).fr = false := by
  cases p with
  | absence q => exact absurd ⟨q, Or.inl rfl⟩ notQuad
  | cadence q => exact absurd ⟨q, Or.inr rfl⟩ notQuad
  | settle => exact absurd rfl notSettle
  | leaveLocked => exact absurd rfl notLeave
  | _ => rfl

theorem partTouch_rings (notSettle : p ≠ .settle) : (partTouch p).rings = false := by
  cases p with
  | settle => exact absurd rfl notSettle
  | _ => rfl

theorem partTouch_fmt (notSwitch : p ≠ .switch) (notStop : p ≠ .stop) : (partTouch p).fmt = false := by
  cases p with
  | switch => exact absurd rfl notSwitch
  | stop => exact absurd rfl notStop
  | _ => rfl

theorem partTouch_clips (notClips : p ≠ .clips) (notStop : p ≠ .stop) : (partTouch p).clips = false := by
  cases p with
  | clips => exact absurd rfl notClips
  | stop => exact absurd rfl notStop
  | _ => rfl

theorem partTouch_pc (notCheck : p ≠ .pathCheck) (notStop : p ≠ .stop) : (partTouch p).pc = false := by
  cases p with
  | pathCheck => exact absurd rfl notCheck
  | stop => exact absurd rfl notStop
  | _ => rfl

theorem partTouch_commit (notSwitch : p ≠ .switch) (notStop : p ≠ .stop) :
    (partTouch p).ce = false ∧ (partTouch p).active = false := by
  cases p with
  | switch => exact absurd rfl notSwitch
  | stop => exact absurd rfl notStop
  | _ => exact ⟨rfl, rfl⟩

theorem partTouch_tpt (notQuad : ¬OfQuad p) (p_ne : p ≠ .takePoints ∧ p ≠ .switch ∧ p ≠ .settle ∧ p ≠ .leaveLocked ∧ p ≠ .stop) :
    (partTouch p).tpt = false := by
  obtain ⟨notTakes, notSwitch, notSettle, notLeave, notStop⟩ := p_ne
  cases p with
  | takePoints => exact absurd rfl notTakes
  | switch => exact absurd rfl notSwitch
  | absence q => exact absurd ⟨q, Or.inl rfl⟩ notQuad
  | settle => exact absurd rfl notSettle
  | leaveLocked => exact absurd rfl notLeave
  | stop => exact absurd rfl notStop
  | _ => rfl

end

/-! ## The commit and the uses of the records -/

section
variable {f : Feed} {fm : Format} {p : Part}

/-- A part that is not the switch, the stop or the Path Checker's tells at most, and leaves the executor. -/
theorem boundaryPart_told (notSwitch : p ≠ .switch) (notStop : p ≠ .stop) (notCheck : p ≠ .pathCheck) (s : State) :
    OnlyTold s (boundaryPart f fm p s) := by
  cases p with
  | takePoints => exact .of_frame (frame_judgeTakePoints s _)
  | switch => exact absurd rfl notSwitch
  | clips => exact told_handOverClips _ s
  | presence t => exact told_judgeFeedTrack f t s
  | absence q => exact .of_frame (frame_closeQuadFrame s f q)
  | cadence q => exact told_judgeCadence f fm q s
  | dueCount => exact .of_frame (frame_countDue s f)
  | pathCheck => exact absurd rfl notCheck
  | settle => exact .of_frame (frame_settleStep s f)
  | leaveLocked => exact .of_frame (frame_leaveLocked s f)
  | stop => exact absurd rfl notStop
  | silence | emission | lineWrite | lineOffer => exact .of_frame (Frame.refl {} s)

theorem keepsCommit_pathCheckBoundary (f : Feed) (s : State) : KeepsCommit s (pathCheckBoundary f s) := by
  have frame := frame_pathCheckBoundary s f
  have same (idle : s.pc.state = .idle) : pathCheckBoundary f s = s := pathCheckBoundary_of_not (Or.inl idle)
  refine ⟨frame.ce rfl, frame.active rfl, fun idle => ?_, fun idle => ?_⟩ <;> rw [same idle]
  exact SameExecutor.refl s

theorem boundaryPart_keepsCommit (notSwitch : p ≠ .switch) (notStop : p ≠ .stop) (s : State) :
    KeepsCommit s (boundaryPart f fm p s) := by
  by_cases check : p = .pathCheck
  · subst check
    exact keepsCommit_pathCheckBoundary f s
  · obtain ⟨ce, active⟩ := partTouch_commit notSwitch notStop
    exact .of_told (boundaryPart_frame f fm p s) (boundaryPart_told notSwitch notStop check s) ce active (partTouch_pc check notStop)

theorem boundaryPart_sameUses (notSwitch : p ≠ .switch) (notStop : p ≠ .stop) (s : State) :
    SameUses s.tpt (boundaryPart f fm p s).tpt := by
  cases p with
  | takePoints => exact sameUses_judgeTakePoints _ s
  | switch => exact absurd rfl notSwitch
  | absence q => exact sameUses_closeQuadFrame f q s
  | settle => exact sameUses_settleStep f s
  | leaveLocked => exact sameUses_leaveLocked f s
  | stop => exact absurd rfl notStop
  | clips => exact .of_frame (frame_handOverClips s _)
  | presence t => exact .of_frame (frame_judgeFeedTrack s f t)
  | cadence q => exact .of_frame (frame_judgeCadence s f fm q)
  | dueCount => exact SameUses.refl _
  | pathCheck => exact .of_frame (frame_pathCheckBoundary s f)
  | silence | emission | lineWrite | lineOffer => exact SameUses.refl _

theorem walk_keepsCommit {l : List Part} (of : ∀ p ∈ l, p ≠ .switch ∧ p ≠ .stop) (s : State) :
    KeepsCommit s (walk l (boundaryPart f fm) s) ∧ SameUses s.tpt (walk l (boundaryPart f fm) s).tpt := by
  induction l generalizing s with
  | nil => exact ⟨KeepsCommit.refl s, SameUses.refl _⟩
  | cons p l ih =>
    obtain ⟨notSwitch, notStop⟩ := of p List.mem_cons_self
    obtain ⟨commit, uses⟩ := ih (fun q mem => of q (List.mem_cons_of_mem _ mem)) (boundaryPart f fm p s)
    exact ⟨(boundaryPart_keepsCommit notSwitch notStop s).trans commit, (boundaryPart_sameUses notSwitch notStop s).trans uses⟩

end

theorem count_switch_matchedParts (st : FrState) : (matchedParts st).count .switch = 1 := by cases st <;> decide

/-- The switch among the other parts of a boundary that closes a matching frame (R102). -/
theorem switchesCommit_walk {f : Feed} {fm : Format} {st : FrState} {l : List Part} {s u : State} (one : OneCommand s)
    (before : KeepsCommit s u) (perm : l.Perm (matchedParts st)) :
    SwitchesCommit (feedDomain f) s (walk l (boundaryPart f fm) u) := by
  obtain ⟨pre, post, split, sides⟩ := exists_split perm (count_switch_matchedParts st)
  have of : ∀ p, p ∈ pre ∨ p ∈ post → p ≠ .switch ∧ p ≠ .stop := fun p side =>
    ⟨(sides p side).2, (mem_matchedParts (sides p side).1).2.2⟩
  obtain ⟨pre_keeps, -⟩ := walk_keepsCommit (f := f) (fm := fm) (fun p mem => of p (Or.inl mem)) u
  obtain ⟨post_keeps, uses⟩ := walk_keepsCommit (f := f) (fm := fm) (fun p mem => of p (Or.inr mem))
    (switchAt (feedDomain f) true (walk pre (boundaryPart f fm) u))
  rw [split, walk_append, walk_cons]
  exact SwitchesCommit.among (running := true) one (before.trans pre_keeps) post_keeps fun _ _ _ _ _ => usedCount_eq_of_sameUses uses

/-! ## The receivers -/

/-- From s to t the FRs change in nothing but quads of feed f. -/
def QuadsOnly (f : Feed) (s t : State) : Prop :=
  (∃ quads, t.fr.get f = { s.fr.get f with quads := quads }) ∧ ∀ g, g ≠ f → t.fr.get g = s.fr.get g

section
variable {f : Feed} {s t u : State}

theorem QuadsOnly.of_eq (fr : t.fr = s.fr) : QuadsOnly f s t := by
  unfold QuadsOnly
  rw [fr]
  exact ⟨⟨_, rfl⟩, fun _ _ => rfl⟩

theorem QuadsOnly.trans (h : QuadsOnly f s t) (k : QuadsOnly f t u) : QuadsOnly f s u := by
  obtain ⟨⟨quads, fr⟩, others⟩ := h
  obtain ⟨⟨quads', fr'⟩, others'⟩ := k
  exact ⟨⟨quads', by rw [fr', fr]⟩, fun g other => (others' g other).trans (others g other)⟩

theorem quadsOnly_setFr (quads : Table 4 QuadTrack) : QuadsOnly f s (s.setFr f { s.fr.get f with quads := quads }) :=
  ⟨⟨quads, (setFr_get _ _ _ _).trans (if_pos rfl)⟩, fun _ other => (setFr_get _ _ _ _).trans (if_neg (Ne.symm other))⟩

theorem quadsOnly_judgeCadence (fm : Format) (q : Quad) (s : State) : QuadsOnly f s (judgeCadence f fm q s) :=
  keeps_ite ((quadsOnly_setFr _).trans (.of_eq ((frame_report _ _ _).fr rfl))) (quadsOnly_setFr _)

theorem quadsOnly_closeQuadFrame (q : Quad) (s : State) : QuadsOnly f s (closeQuadFrame f q s) := by
  have absent (u : State) : QuadsOnly f u (quadAbsent f q u) :=
    QuadsOnly.trans (t := resetTracksOfRing (feedRing f q) (starveRing (feedRing f q) u)) (.of_eq rfl) (quadsOnly_setFr _)
  have counted := quadsOnly_setFr (f := f) (s := s) ((s.fr.get f).quads.set q ((s.fr.get f).quads.get q).counted)
  rw [closeQuadFrame_eq]
  exact keeps_ite (counted.trans (absent _)) counted

end

/-- Every part but the settle count and the leaving of LOCKED leaves the FRs, but for quads of the feed. -/
theorem boundaryPart_fr {f : Feed} {fm : Format} {p : Part} (notSettle : p ≠ .settle) (notLeave : p ≠ .leaveLocked) (s : State) :
    QuadsOnly f s (boundaryPart f fm p s) := by
  by_cases quad : OfQuad p
  · obtain ⟨q, rfl | rfl⟩ := quad
    · exact quadsOnly_closeQuadFrame q s
    · exact quadsOnly_judgeCadence fm q s
  · exact .of_eq ((boundaryPart_frame f fm p s).fr (partTouch_fr notSettle notLeave quad))

theorem boundaryPart_rings {f : Feed} {fm : Format} {p : Part} (notSettle : p ≠ .settle) (s : State) :
    (boundaryPart f fm p s).rings = s.rings := (boundaryPart_frame f fm p s).rings (partTouch_rings notSettle)

/-! ## The phase and the first packets of the frame -/

/-- The frame that a boundary has opened in domain f: its phase, and no packet sent yet (R35, R40). -/
def FrameOpened (f : Feed) (k : Nat) (s : State) : Prop :=
  (s.fmt.get f).phase = k ∧ ∀ q, (s.fmt.get f).firstSent.get q = false

section
variable {f : Feed} {k : Nat} {s : State}

theorem FrameOpened.of_frame {t : Touch} {s' : State} (h : FrameOpened f k s) (frame : Frame t s s') (fmt : t.fmt = false := by rfl) :
    FrameOpened f k s' := by
  unfold FrameOpened
  rw [frame.fmt fmt]
  exact h

theorem FrameOpened.switchTo (h : FrameOpened f k s) (d : Domain) (running : Bool) (p : Bank) :
    FrameOpened f k (switchTo d running p s) := by
  unfold FrameOpened
  rw [switchTo_fmt]
  split
  · rename_i g _
    rw [Table.get_set]
    split
    case isTrue same =>
      subst same
      exact h
    case isFalse => exact h
  · exact h

theorem FrameOpened.switchAt (h : FrameOpened f k s) (d : Domain) (running : Bool) : FrameOpened f k (switchAt d running s) :=
  switchAt_keeps (fun frame h => FrameOpened.of_frame h frame) (fun e p _ h => FrameOpened.switchTo h e false p)
    (fun p _ h => FrameOpened.switchTo h d running p) s h

theorem FrameOpened.part (h : FrameOpened f k s) (fm : Format) {p : Part} (notStop : p ≠ .stop) :
    FrameOpened f k (boundaryPart f fm p s) := by
  by_cases switch : p = .switch
  · subst switch
    exact h.switchAt _ _
  · exact h.of_frame (boundaryPart_frame f fm p s) (partTouch_fmt switch notStop)

end

/-! ## The clip marks -/

theorem boundaryPart_clips {f : Feed} {fm : Format} {p : Part} {x : Dest} {s : State} (clear : s.clips.get x = false)
    (notStop : p ≠ .stop) : (boundaryPart f fm p s).clips.get x = false := by
  by_cases clips : p = .clips
  · subst clips
    refine (handOverClips_get _ s x).trans ?_
    rw [clear]
    exact ite_self _
  · rw [(boundaryPart_frame f fm p s).clips (partTouch_clips clips notStop)]
    exact clear

end Machine
end Sys2Proof
end

section
/-! PROOF. The Path Checker and the entry into LOCKED among the parts of a boundary (R6, R23, R45, R52, R139, R148, R151). -/

namespace Sys2Proof
namespace Machine

/-! ## Requests under a switch (R96) -/

section
variable {s : State}

theorem requests_validate (r : Requester) (s : State) (noFlight : s.ce.inFlight = none) :
    requests (validate r s).ce = s.ce.waiting ∨ requests (validate r s).ce = r :: s.ce.waiting := by
  have refused (result : CommitResult) (v : Verdict) (o : CueOutcome) (words : List Word) :
      requests (refuseCommit r result v o words s).ce = s.ce.waiting := by
    rw [refuseCommit_ce]
    exact requests_of_none noFlight
  refine keeps_ite (P := fun t => requests t.ce = s.ce.waiting ∨ requests t.ce = r :: s.ce.waiting) (Or.inl (refused _ _ _ _))
    (keeps_ite (P := fun t => requests t.ce = s.ce.waiting ∨ requests t.ce = r :: s.ce.waiting) (Or.inl (refused _ _ _ _))
      (Or.inr ?_))
  unfold acceptCommit
  rw [requests_of_unmoved (unmoved_switchIfStopped _)]
  exact requests_of_some (c := newInFlight r (snapshotFor r s) s) rfl

theorem mem_requests_takeWaiting {order : List Requester} (noFlight : s.ce.inFlight = none) (waiting : s.ce.waiting = order)
    {r : Requester} (mem : r ∈ requests (takeWaiting order s).ce) : r ∈ order := by
  induction order generalizing s with
  | nil =>
    have none : requests s.ce = [] := (requests_of_none noFlight).trans waiting
    exact none ▸ mem
  | cons q rest ih =>
    have left := leaveOrder_unmoved q (s.setCe { s.ce with waiting := rest })
    have ce : (leaveOrder q (s.setCe { s.ce with waiting := rest })).ce = { s.ce with waiting := rest } :=
      (frame_leaveOrder _ q).ce rfl
    have judged := requests_validate q (leaveOrder q (s.setCe { s.ce with waiting := rest })) (by rw [ce]; exact noFlight)
    have waits := validate_waiting q (leaveOrder q (s.setCe { s.ce with waiting := rest }))
    rw [ce] at judged waits
    rw [takeWaiting_cons] at mem
    generalize validate q (leaveOrder q (s.setCe { s.ce with waiting := rest })) = v at mem judged waits
    dsimp only at mem waits judged
    split at mem
    · rcases judged with judged | judged <;> rw [judged] at mem
      · exact List.mem_cons_of_mem _ mem
      · exact mem
    · rename_i noneTaken
      exact List.mem_cons_of_mem _ (ih (Option.not_isSome_iff_eq_none.1 noneTaken) waits mem)

theorem NoCommandRequests.switchAt (h : NoCommandRequests s) (d : Domain) (running : Bool) :
    NoCommandRequests (switchAt d running s) := by
  have domain : NoCommandRequests (switchDomain d running s) := by
    unfold NoCommandRequests
    rw [requests_of_unmoved (unmoved_switchDomain d running s)]
    exact h
  unfold Machine.switchAt completeIfSwitched
  split
  · exact domain
  · rename_i c flight
    refine keeps_ite (fun r mem => domain r ?_) domain
    rw [completeCommit_eq] at mem
    have ended := completedPart_ce c (switchDomain d running s)
    rw [requests_of_some flight]
    refine List.mem_cons_of_mem _ (mem_requests_takeWaiting ?_ ?_ mem) <;> rw [ended] <;> rfl

end

/-! ## The Path Checker among the others (R148, R151) -/

/-- From s to u the PC and the executor stay, and no request with the CE is a command's. -/
structure PcBeside (s u : State) : Prop where
  pc : u.pc = s.pc
  executor : SameExecutor s u
  noCommand : NoCommandRequests u

section
variable {f : Feed} {fm : Format} {s u : State}

theorem PcBeside.part (h : PcBeside s u) {p : Part} (notCheck : p ≠ .pathCheck) (notStop : p ≠ .stop) :
    PcBeside s (boundaryPart f fm p u) := by
  have pc := (boundaryPart_frame f fm p u).pc (partTouch_pc notCheck notStop)
  by_cases switch : p = .switch
  · subst switch
    exact ⟨pc.trans h.pc, h.executor.trans (switchAt_sameExecutor h.noCommand _ _), h.noCommand.switchAt _ _⟩
  · have ce := (boundaryPart_frame f fm p u).ce (partTouch_commit switch notStop).1
    refine ⟨pc.trans h.pc, h.executor.trans (SameExecutor.of_told (boundaryPart_told switch notStop notCheck u)), ?_⟩
    unfold NoCommandRequests
    rw [ce]
    exact h.noCommand

theorem PcBeside.walk {l : List Part} (h : PcBeside s u) (of : ∀ p ∈ l, p ≠ .pathCheck ∧ p ≠ .stop) :
    PcBeside s (walk l (boundaryPart f fm) u) :=
  walk_holds (P := PcBeside s) l (fun p mem _ h => h.part (of p mem).1 (of p mem).2) u h

theorem pc_walk_of_not {st : FrState} {l : List Part} (of : ∀ p ∈ l, p ∈ matchedParts st) (not : u.pc.state = .idle ∨ u.pc.feed ≠ f) :
    (walk l (boundaryPart f fm) u).pc = u.pc := by
  refine walk_holds (P := fun v => v.pc = u.pc) l (fun p mem v same => ?_) u rfl
  by_cases check : p = .pathCheck
  · subst check
    have still : boundaryPart f fm .pathCheck v = v := pathCheckBoundary_of_not (by rw [same]; exact not)
    rw [still]
    exact same
  · exact ((boundaryPart_frame f fm p v).pc (partTouch_pc check (mem_matchedParts (of p mem)).2.2)).trans same

theorem count_pathCheck_matchedParts (st : FrState) : (matchedParts st).count .pathCheck = 1 := by cases st <;> decide

theorem settleStep_last_fr {f : Feed} {s : State} (last : (s.fr.get f).settleRemaining ≤ 1) : (settleStep f s).fr.get f =
    { s.fr.get f with state := .locked, settleRemaining := 0, quads := (s.fr.get f).quads.map QuadTrack.entered } := by
  have zero : (s.fr.get f).settleRemaining - 1 = 0 := by omega
  rw [settleStep_of_last last, enterLocked_fr, if_pos rfl, setFr_get, if_pos rfl, zero]

theorem settleStep_fr (f : Feed) (s : State) : (∃ st n quads, (settleStep f s).fr.get f =
    { s.fr.get f with state := st, settleRemaining := n, quads := quads }) ∧
      ∀ g, g ≠ f → (settleStep f s).fr.get g = s.fr.get g := by
  have counted (g : Feed) := setFr_get s f g { s.fr.get f with settleRemaining := (s.fr.get f).settleRemaining - 1 }
  rcases Nat.lt_or_ge 1 (s.fr.get f).settleRemaining with counting | last
  · rw [settleStep_of_counting counting]
    exact ⟨⟨_, _, _, (counted f).trans (if_pos rfl)⟩, fun g other => (counted g).trans (if_neg (Ne.symm other))⟩
  · refine ⟨⟨_, _, _, settleStep_last_fr last⟩, fun g other => ?_⟩
    · rw [settleStep_of_last last, enterLocked_fr, if_neg (Ne.symm other), counted g, if_neg (Ne.symm other)]

/-- The FR goes on in a frame just opened, with the detected format (R3, R8; log entry 2). -/
def GoesOn (f : Feed) (fm : Format) (s : State) : Prop := (s.fr.get f).lineCount = 1 ∧ (s.fr.get f).detected = some fm

theorem GoesOn.part (h : GoesOn f fm s) {p : Part} (notLeave : p ≠ .leaveLocked) : GoesOn f fm (boundaryPart f fm p s) := by
  by_cases settle : p = .settle
  · subst settle
    obtain ⟨⟨st, n, quads, fr⟩, -⟩ := settleStep_fr f s
    exact ⟨(congrArg Receiver.lineCount fr).trans h.1, (congrArg Receiver.detected fr).trans h.2⟩
  · obtain ⟨⟨quads, fr⟩, -⟩ := boundaryPart_fr (f := f) (fm := fm) settle notLeave s
    unfold GoesOn
    rw [fr]
    exact h

/-- A path check of the feed among the other parts of the boundary: it begins, or completes and is answered, as it would by itself. -/
theorem pathCheck_walk {st : FrState} {l : List Part} (perm : l.Perm (matchedParts st)) {k : Nat} (beside : PcBeside s u)
    (opened : FrameOpened f k u) (goes : GoesOn f fm u) : ∃ w, PcBeside s w ∧ FrameOpened f k w ∧ GoesOn f fm w ∧
      (walk l (boundaryPart f fm) u).pc = (pathCheckBoundary f w).pc ∧
      SameExecutor (pathCheckBoundary f w) (walk l (boundaryPart f fm) u) := by
  obtain ⟨pre, post, split, sides⟩ := exists_split perm (count_pathCheck_matchedParts st)
  have of (p : Part) (side : p ∈ pre ∨ p ∈ post) : p ≠ .pathCheck ∧ p ≠ .stop :=
    ⟨(sides p side).2, (mem_matchedParts (sides p side).1).2.2⟩
  have before : PcBeside s (walk pre (boundaryPart f fm) u) := beside.walk fun p mem => of p (Or.inl mem)
  refine ⟨_, before, walk_holds (P := FrameOpened f k) pre (fun p mem _ h => h.part fm (of p (Or.inl mem)).2) u opened,
    walk_holds (P := GoesOn f fm) pre (fun p mem _ h => h.part (mem_matchedParts (sides p (Or.inl mem)).1).2.1) u goes, ?_⟩
  have none : NoCommandRequests (pathCheckBoundary f (walk pre (boundaryPart f fm) u)) := by
    unfold NoCommandRequests
    rw [(frame_pathCheckBoundary _ f).ce rfl]
    exact before.noCommand
  have after : PcBeside (pathCheckBoundary f (walk pre (boundaryPart f fm) u)) (walk l (boundaryPart f fm) u) := by
    rw [split, walk_append, walk_cons]
    exact PcBeside.walk ⟨rfl, SameExecutor.refl _, none⟩ fun p mem => of p (Or.inr mem)
  exact ⟨after.pc, after.executor⟩

/-- A path check that completes at the boundary is answered from the PC and the executor alone (R151). -/
theorem pathCheckBoundary_congr (pc : u.pc = s.pc) (k : SameExecutor s u) (on : s.pc.feed = f) (checking : s.pc.state = .checking) :
    (pathCheckBoundary f u).pc = (pathCheckBoundary f s).pc ∧ SameExecutor (pathCheckBoundary f s) (pathCheckBoundary f u) := by
  rw [pathCheckBoundary_of_checking on checking, pathCheckBoundary_of_checking (by rw [pc]; exact on) (by rw [pc]; exact checking),
    pc, (frame_answerCommand _ _ _).pc rfl, (frame_answerCommand _ _ _).pc rfl]
  have marked : SameExecutor (s.setPc { s.pc.closed with state := .idle }) (u.setPc { s.pc.closed with state := .idle }) :=
    ⟨k.queue, k.cx, k.discard, k.answers⟩
  exact ⟨rfl, answerCommand_sameExecutor marked _ _⟩

end

end Machine
end Sys2Proof
end

section
/-! PROOF. O18: the boundary that closes a matching frame (R6, R8, R15, R40, R102, R131, R148, R151). -/

namespace Sys2Proof
namespace Machine

/-! ## The settle count among the others (R6) -/

section
variable {f : Feed} {fm : Format} {s u : State} {l : List Part}

theorem partTouch_of_settling {p : Part} (mem : p ∈ matchedParts .settling) (other : p ≠ .settle) :
    (partTouch p).fr = false ∧ (partTouch p).rings = false ∧ (partTouch p).watch = false := by
  simp only [matchedParts, List.mem_append, List.mem_cons, List.not_mem_nil, or_false] at mem
  rcases mem with (rfl | rfl | rfl | rfl | rfl) | rfl
  · exact ⟨rfl, rfl, rfl⟩
  · exact ⟨rfl, rfl, rfl⟩
  · exact ⟨rfl, rfl, rfl⟩
  · exact ⟨rfl, rfl, rfl⟩
  · exact ⟨rfl, rfl, rfl⟩
  · exact absurd rfl other

/-- The FRs, the rings and the watched tracks, which the settle count changes and no other part of its boundary does. -/
def SameFeeds (s t : State) : Prop := t.fr = s.fr ∧ t.rings = s.rings ∧ t.watch = s.watch

theorem SameFeeds.walk (of : ∀ p ∈ l, p ∈ matchedParts .settling ∧ p ≠ .settle) (u : State) :
    SameFeeds u (walk l (boundaryPart f fm) u) := by
  refine walk_holds (P := SameFeeds u) l (fun p mem v h => ?_) u ⟨rfl, rfl, rfl⟩
  obtain ⟨fr, rings, watch⟩ := h
  obtain ⟨notFr, notRings, notWatch⟩ := partTouch_of_settling (of p mem).1 (of p mem).2
  have frame := boundaryPart_frame f fm p v
  exact ⟨(frame.fr notFr).trans fr, (frame.rings notRings).trans rings, (frame.watch notWatch).trans watch⟩

/-- At the boundary of a settling FR the settle count is taken in a state with the FRs, rings and tracks of the start. -/
theorem settling_walk (perm : l.Perm (matchedParts .settling)) (u : State) :
    ∃ w, SameFeeds u w ∧ SameFeeds (settleStep f w) (walk l (boundaryPart f fm) u) := by
  obtain ⟨pre, post, split, sides⟩ := exists_split (a := .settle) perm (by decide)
  refine ⟨_, SameFeeds.walk (f := f) (fm := fm) (fun p mem => sides p (Or.inl mem)) u, ?_⟩
  rw [split, walk_append, walk_cons]
  exact SameFeeds.walk (fun p mem => sides p (Or.inr mem)) _

/-! ## The records at the entry into LOCKED -/

/-- A record of a feed's ring in a frame end at which the feed locks: FREE only where a switch may have freed it, or on its ring; `free` says that a commit was in flight. -/
structure AwaitsLock (f : Feed) (i : RecordNo) (free : Prop) (u : State) : Prop where
  behind : NoneBehind u
  still : free ∨ u.ce.inFlight = none
  freed : (u.tpt.get i).state = .free → free
  on : (u.tpt.get i).state = .free ∨ (u.tpt.get i).ring.val / 4 = f.val
  last : (u.fr.get f).settleRemaining ≤ 1

/-- The record is FILLING or freed, and its feed's rings are empty. -/
def LocksIn (f : Feed) (i : RecordNo) (u : State) : Prop :=
  ((u.tpt.get i).state = .filling ∨ (u.tpt.get i).state = .free) ∧
    ∀ r : RingNo, r.val / 4 = f.val → (u.rings.get r).written = 0

section
variable {i : RecordNo} {free : Prop}

theorem AwaitsLock.congr (h : AwaitsLock f i free s) (ce : u.ce = s.ce) (uses : SameUses s.tpt u.tpt)
    (last : (u.fr.get f).settleRemaining ≤ 1) : AwaitsLock f i free u := by
  obtain ⟨behind, still, freed, on, -⟩ := h
  have use := uses i
  exact ⟨behind.congr ce, by rw [ce]; exact still, fun now => freed (use.free.1 now), by rw [use.free, use.ring]; exact on, last⟩

/-- The switch keeps a record or frees it, where a commit is in flight. -/
theorem AwaitsLock.switchAt (h : AwaitsLock f i free s) (d : Domain) (running : Bool) : AwaitsLock f i free (switchAt d running s) := by
  have fr : (Machine.switchAt d running s).fr = s.fr := (frame_switchAt s d running).fr rfl
  rcases h.still with some | none
  · obtain ⟨records, behind⟩ := h.behind.switchAt d running
    refine ⟨behind, Or.inl some, fun _ => some, ?_, by rw [fr]; exact h.last⟩
    rcases records i with now | ⟨state, ring⟩
    · exact Or.inl now
    · rw [state, ring]
      exact h.on
  · rw [switchAt_of_idle none]
    exact h

theorem settleStep_tpt (last : (s.fr.get f).settleRemaining ≤ 1) (i : RecordNo) : (settleStep f s).tpt.get i =
    if (s.tpt.get i).ring.val / 4 = f.val ∧ (s.tpt.get i).state ≠ .free then { s.tpt.get i with state := .filling }
    else s.tpt.get i := by
  rw [settleStep_of_last last]
  exact enterLocked_tpt f (s.setFr f _) i

theorem AwaitsLock.settle (h : AwaitsLock f i free s) : AwaitsLock f i free (settleStep f s) ∧ LocksIn f i (settleStep f s) := by
  refine ⟨h.congr ((frame_settleStep s f).ce rfl) (sameUses_settleStep f s) ?_, ?_, fun r on => ?_⟩
  · rw [settleStep_last_fr h.last]
    exact Nat.zero_le 1
  · rw [settleStep_tpt h.last]
    split
    case isTrue => exact Or.inl rfl
    case isFalse off => exact Or.inr (h.on.elim id fun on => by_contra fun used => off ⟨on, used⟩)
  · rw [settleStep_of_last h.last, enterLocked_rings, if_pos on]

/-- A boundary of the domain leaves a FILLING record of an empty ring FILLING (R64). -/
theorem judgeTakePoints_locksIn (d : Domain) (h : LocksIn f i s) (on : (s.tpt.get i).state = .free ∨ (s.tpt.get i).ring.val / 4 = f.val) :
    LocksIn f i (judgeTakePoints d s) := by
  obtain ⟨record, empty⟩ := h
  refine ⟨?_, empty⟩
  rcases record with filling | now
  · have ring := on.resolve_left (by rw [filling]; nofun)
    have short : ¬(ringFed s (s.tpt.get i).ring ∧ 96 ≤ (s.rings.get (s.tpt.get i).ring).written) := by
      rw [empty _ ring]
      omega
    have judged : judgedAtBoundary s (s.tpt.get i) = s.tpt.get i := by
      unfold judgedAtBoundary
      rw [filling]
      exact if_neg short
    rw [judgeTakePoints_get, judged]
    exact Or.inl (by rw [ite_self, filling])
  · exact Or.inr (((sameUses_judgeTakePoints d s) i).free.2 now)

theorem AwaitsLock.part (h : AwaitsLock f i free s) {p : Part} (mem : p ∈ matchedParts .settling) :
    AwaitsLock f i free (boundaryPart f fm p s) := by
  by_cases settle : p = .settle
  · subst settle
    exact h.settle.1
  · by_cases switch : p = .switch
    · subst switch
      exact h.switchAt _ _
    · have frame := boundaryPart_frame f fm p s
      have notStop := (mem_matchedParts mem).2.2
      refine h.congr (frame.ce (partTouch_commit switch notStop).1) (boundaryPart_sameUses switch notStop s) ?_
      rw [frame.fr (partTouch_of_settling mem settle).1]
      exact h.last

theorem LocksIn.part (h : LocksIn f i s) (awaits : AwaitsLock f i free s) {p : Part} (mem : p ∈ matchedParts .settling) :
    LocksIn f i (boundaryPart f fm p s) := by
  by_cases settle : p = .settle
  · subst settle
    exact awaits.settle.2
  · by_cases takes : p = .takePoints
    · subst takes
      exact judgeTakePoints_locksIn _ h awaits.on
    · have frame := boundaryPart_frame f fm p s
      have rings := frame.rings (partTouch_of_settling mem settle).2.1
      by_cases switch : p = .switch
      · subst switch
        obtain ⟨records, -⟩ := awaits.behind.switchAt (feedDomain f) true
        refine ⟨?_, by rw [rings]; exact h.2⟩
        rcases records i with now | ⟨state, -⟩
        · exact Or.inr now
        · exact (congrArg (fun st => st = TpState.filling ∨ st = .free) state).mpr h.1
      · obtain ⟨notQuad, notLeave, notStop⟩ := mem_matchedParts mem
        have tpt := frame.tpt (partTouch_tpt (fun ⟨q, of⟩ => nomatch notQuad q of) ⟨takes, switch, settle, notLeave, notStop⟩)
        unfold LocksIn
        rw [tpt, rings]
        exact h

end

/-- The records of a feed's rings when it has locked at the end of its settling (R52). -/
theorem settling_records (perm : l.Perm (matchedParts .settling)) (last : (u.fr.get f).settleRemaining ≤ 1)
    (ce : u.ce = s.ce) (tpt : u.tpt = s.tpt) (behind : s.ce.inFlight = none ∨ s.ce.waiting = []) (i : RecordNo)
    (used : (s.tpt.get i).state ≠ .free) (on : (s.tpt.get i).ring.val / 4 = f.val) :
    ((walk l (boundaryPart f fm) u).tpt.get i).state = .filling ∨
      (s.ce.inFlight ≠ none ∧ ((walk l (boundaryPart f fm) u).tpt.get i).state = .free) := by
  have of (p : Part) (mem : p ∈ l) : p ∈ matchedParts .settling := perm.mem_iff.1 mem
  have start : AwaitsLock f i (s.ce.inFlight ≠ none) u := by
    refine ⟨NoneBehind.congr behind ce, ?_, fun now => absurd (tpt ▸ now) used, Or.inr (by rw [tpt]; exact on), last⟩
    rw [ce]
    exact (em _).symm
  have awaits := walk_holds (P := AwaitsLock f i (s.ce.inFlight ≠ none)) (f := boundaryPart f fm) l
    (fun p mem _ h => h.part (of p mem)) u start
  obtain ⟨filling | now, -⟩ := walk_brings (f := boundaryPart f fm) (b := .settle) (P := AwaitsLock f i (s.ce.inFlight ≠ none))
    (Q := LocksIn f i) (fun p mem _ h => h.part (of p mem)) (fun p mem _ h locks => LocksIn.part locks h (of p mem))
    (fun _ h => h.settle.2) (perm.mem_iff.2 (by decide)) start
  · exact Or.inl filling
  · exact Or.inr ⟨awaits.freed now, now⟩

end

/-! ## The boundary -/

section
variable {f : Feed} {fm : Format} {period : Time} {order : List Part} {s : State}

theorem closeFrame_of_matched {m : Option Format} (running : runningState (s.fr.get f).state = true)
    (detected : (s.fr.get f).detected = some fm) (matches' : m = some fm) :
    closeFrame f m order s = walk (schedule order (matchedParts (s.fr.get f).state)) (boundaryPart f fm) (openFrame f fm s) := by
  refine (if_pos running).trans ?_
  rw [detected]
  exact if_pos matches'

theorem frameMark_of_matched (running : runningState (s.fr.get f).state = true) (opened : (s.fr.get f).frameOpen = true)
    (detected : (s.fr.get f).detected = some fm) (matches' : matchFormat (s.fr.get f).lineCount period = some fm) :
    frameMark f period order s = walk (schedule order (matchedParts (s.fr.get f).state)) (boundaryPart f fm)
      (openFrame f fm (marked f s)) := by
  have fr : (marked f s).fr.get f = _ := (marked_fr f).trans (if_pos rfl)
  rw [frameMark_of_open (on_of_running running) opened,
    closeFrame_of_matched (fm := fm) (by rw [fr]; exact running) (by rw [fr]; exact detected) matches', fr]

/-- What the opening of the next frame leaves for the parts of the boundary. -/
theorem frame_openFrame_marked (f : Feed) (fm : Format) (s : State) :
    Frame { fr := true, fmt := true, cm := true } s (openFrame f fm (marked f s)) :=
  ((frame_setFr s f _).mono).trans ((frame_openFrame _ f fm).mono)

theorem openFrame_marked_fr (f : Feed) (fm : Format) (s : State) :
    (openFrame f fm (marked f s)).fr.get f = { s.fr.get f with lineCount := 1 } := by
  rw [(frame_openFrame _ f fm).fr rfl, marked_fr, if_pos rfl]

theorem frameOpened_openFrame (f : Feed) (fm : Format) (s : State) :
    FrameOpened f (((s.fmt.get f).phase + 1) % cadenceLength fm) (openFrame f fm s) := by
  have fmt : (openFrame f fm s).fmt.get f = _ := Table.get_set_same _ _ _
  unfold FrameOpened
  rw [fmt]
  exact ⟨rfl, fun q => Table.get_fill _ _⟩

end

theorem schedule_of_perm {order parts : List Part} (h : order.Perm parts) : schedule order parts = order := by
  induction order generalizing parts with
  | nil => exact (List.nil_perm.1 h).trans rfl
  | cons p rest ih =>
    have mem : p ∈ parts := h.mem_iff.1 List.mem_cons_self
    refine (if_pos mem).trans (congrArg (p :: ·) (ih ?_))
    exact List.cons_perm_iff_perm_erase.1 h |>.2

theorem clips_mem_matchedParts (st : FrState) : Part.clips ∈ matchedParts st := by cases st <;> decide

section
variable {f : Feed} {fm : Format} {period : Time} {order : List Part} {s : State}

/-- The end of the settling at its last boundary: LOCKED, with the rings, tracks and quads as the entry leaves them (R6, R23, R45, R52, R139). -/
theorem enteredLocked_settling {l : List Part} {u : State} (perm : l.Perm (matchedParts .settling))
    (last : (u.fr.get f).settleRemaining ≤ 1) (rings : u.rings = s.rings) (ce : u.ce = s.ce) (tpt : u.tpt = s.tpt) :
    EnteredLocked f s (walk l (boundaryPart f fm) u) := by
  obtain ⟨w, ⟨fr, ringsKept, -⟩, after⟩ := settling_walk (f := f) (fm := fm) perm u
  have lastThere : (w.fr.get f).settleRemaining ≤ 1 := by rw [fr]; exact last
  rw [settleStep_of_last lastThere] at after
  obtain ⟨fr', rings', watch'⟩ := after
  exact enteredLocked_of (u := w.setFr f { w.fr.get f with settleRemaining := (w.fr.get f).settleRemaining - 1 })
    (ringsKept.trans rings) fr' rings' (congrArg Watch.tracks watch') (fun behind i => settling_records perm last ce tpt behind i)

theorem enteredLocked_settleStep (last : (s.fr.get f).settleRemaining ≤ 1) : EnteredLocked f s (settleStep f s) := by
  rw [settleStep_of_last last]
  refine enteredLocked_of (u := s.setFr f { s.fr.get f with settleRemaining := (s.fr.get f).settleRemaining - 1 })
    rfl rfl rfl rfl fun _ i used on => Or.inl ?_
  have tpt := enterLocked_tpt f (s.setFr f { s.fr.get f with settleRemaining := (s.fr.get f).settleRemaining - 1 }) i
  rw [tpt]
  exact congrArg TakePoint.state (if_pos ⟨on, used⟩)

theorem notSettle_of_matched {st : FrState} (other : st ≠ .settling) {p : Part} (mem : p ∈ matchedParts st) : p ≠ .settle := by
  intro same
  have none : (matchedParts st).count .settle = 0 := by
    cases st with
    | settling => exact absurd rfl other
    | _ => decide
  exact absurd (same ▸ mem) (List.count_eq_zero.1 none)

/-- Outside SETTLING a matching boundary leaves the FR as it is, but for its quads, and the rings (R8). -/
theorem walk_matched_kept {st : FrState} {l : List Part} (of : ∀ p ∈ l, p ∈ matchedParts st) (other : st ≠ .settling) (u : State) :
    QuadsOnly f u (walk l (boundaryPart f fm) u) ∧ (walk l (boundaryPart f fm) u).rings = u.rings :=
  walk_holds (P := fun v => QuadsOnly f u v ∧ v.rings = u.rings) l (fun p mem v h => by
    have notSettle := notSettle_of_matched other (of p mem)
    exact ⟨h.1.trans (boundaryPart_fr notSettle (mem_matchedParts (of p mem)).2.1 v), (boundaryPart_rings notSettle v).trans h.2⟩)
    u ⟨.of_eq rfl, rfl⟩

/-- In SETTLING it counts one frame, and locks at the last (R6). -/
theorem walk_settling_fr {l : List Part} (perm : l.Perm (matchedParts .settling)) {u : State} (state : (u.fr.get f).state = .settling) :
    ((walk l (boundaryPart f fm) u).fr.get f).settleRemaining = (u.fr.get f).settleRemaining - 1 ∧
      ((walk l (boundaryPart f fm) u).fr.get f).state = (if (u.fr.get f).settleRemaining ≤ 1 then .locked else .settling) ∧
      (1 < (u.fr.get f).settleRemaining → (walk l (boundaryPart f fm) u).rings = u.rings) := by
  obtain ⟨w, ⟨fr, rings, -⟩, fr', rings', -⟩ := settling_walk (f := f) (fm := fm) perm u
  rw [fr', rings', ← fr]
  rw [← fr] at state
  rcases Nat.lt_or_ge 1 (w.fr.get f).settleRemaining with counting | last
  · rw [settleStep_of_counting counting, setFr_get, if_pos rfl, if_neg (by omega)]
    exact ⟨rfl, state, fun _ => rings⟩
  · rw [settleStep_last_fr last, if_pos last]
    exact ⟨by dsimp only; omega, rfl, fun counting => absurd counting (by omega)⟩

end

/-- Settles O18: the schedule, the running states and the parts by their rules, the event by its branch, and the boundary by its walks. -/
theorem matchingFrameKeepsDomain : Obligations.MatchingFrameKeepsDomain := by
  unfold Obligations.MatchingFrameKeepsDomain
  refine ⟨fun order parts => ⟨schedule_perm order parts, schedule_of_perm, rfl⟩,
    fun s => ⟨domainRunning_domain8 s, fun f => ⟨domainRunning_feedDomain s f, runningState_iff _⟩⟩,
    fun f fm s => ?parts, fun f fm period order s awake => ?awake, fun f fm period order s quiet => ?quiet⟩
  case parts =>
    refine ⟨rfl, rfl, rfl, rfl, rfl, rfl, fun q => ⟨rfl, rfl⟩, fun t => rfl, settleStep_of_counting, fun last => ?_⟩
    have frame := frame_settleStep s f
    exact ⟨enteredLocked_settleStep last, frame.log rfl, frame.ce rfl, _, settleStep_last_fr last⟩
  case awake =>
    intro r running opened detected matches' parts
    have same : parts = matchedParts r.state := by
      change (_ ++ _ : List Part) = _
      cases r.state <;> rfl
    have start : marked f s = s.setFr f { r with lineCount := 1, frameOpen := true } := by
      rw [Receiver.counting_of_open opened]
      rfl
    rw [exec_frameBoundary_of_awake awake, frameMark_of_matched running opened detected matches', same, start]
  case quiet =>
    intro r running opened detected matches'
    have one := oneCommand_of_quiet quiet
    have perm := schedule_perm order (matchedParts r.state)
    have frame := frame_openFrame_marked f fm s
    have fr := openFrame_marked_fr f fm s
    have opens : FrameOpened f (((s.fmt.get f).phase + 1) % cadenceLength fm) (openFrame f fm (marked f s)) :=
      frameOpened_openFrame f fm (marked f s)
    have goes : GoesOn f fm (openFrame f fm (marked f s)) := by
      unfold GoesOn
      rw [fr]
      exact ⟨rfl, detected⟩
    refine ⟨_, (exec_frameBoundary_of_quiet quiet f period order).trans
      (congrArg _ (frameMark_of_matched running opened detected matches')), ?_⟩
    generalize openFrame f fm (marked f s) = u at frame fr opens goes
    generalize schedule order (matchedParts r.state) = l at perm
    have of (p : Part) (mem : p ∈ l) : p ∈ matchedParts r.state := perm.mem_iff.1 mem
    obtain ⟨lineCount, stays⟩ := walk_holds (P := GoesOn f fm) l (fun p mem _ h => h.part (mem_matchedParts (of p mem)).2.1) u goes
    obtain ⟨phase, first⟩ := walk_holds (P := FrameOpened f _) l (fun p mem _ h => h.part fm (mem_matchedParts (of p mem)).2.2) u opens
    have clips (x : Dest) (on : destDomain x = feedDomain f) : (walk l (boundaryPart f fm) u).clips.get x = false :=
      walk_brings (f := boundaryPart f fm) (b := .clips) (P := fun _ => True) (Q := fun v => v.clips.get x = false)
        (fun _ _ _ _ => trivial) (fun p mem _ _ clear => boundaryPart_clips clear (mem_matchedParts (of p mem)).2.2)
        (fun v _ => (handOverClips_get (feedDomain f) v x).trans (if_pos on))
        (perm.mem_iff.2 (clips_mem_matchedParts _)) trivial
    have beside (busy : s.pc.state ≠ .idle) : PcBeside s u := ⟨frame.pc rfl, .of_frame frame, by
      unfold NoCommandRequests
      rw [frame.ce rfl]
      exact one busy⟩
    refine ⟨lineCount, stays, phase, first, fun k => clips _ (destDomain_domainDest _ _),
      switchesCommit_walk one (.of_frame frame) perm, fun locked => ?inLocked, fun wrong => ?inWrong, fun settling => ?inSettling,
      fun others => ?rings, fun not => ?pc, fun waiting on => ?begins, fun checking on => ?completes⟩
    case inLocked =>
      obtain ⟨⟨⟨quads, fr'⟩, -⟩, -⟩ := walk_matched_kept (f := f) (fm := fm) of (by rw [locked]; nofun) u
      rw [fr', fr]
      exact locked
    case inWrong =>
      obtain ⟨⟨⟨quads, fr'⟩, -⟩, -⟩ := walk_matched_kept (f := f) (fm := fm) of (by rw [wrong]; nofun) u
      rw [fr', fr]
      exact wrong
    case inSettling =>
      rw [settling] at perm
      obtain ⟨count, state, -⟩ := walk_settling_fr (f := f) (fm := fm) perm (u := u) (by rw [fr]; exact settling)
      rw [fr] at count state
      exact ⟨count, state, fun last =>
        enteredLocked_settling perm (by rw [fr]; exact last) (frame.rings rfl) (frame.ce rfl) (frame.tpt rfl)⟩
    case rings =>
      by_cases settling : r.state = .settling
      · rw [settling] at perm
        obtain ⟨-, -, rings⟩ := walk_settling_fr (f := f) (fm := fm) perm (u := u) (by rw [fr]; exact settling)
        rw [fr] at rings
        exact (rings (others.resolve_left (not_not_intro settling))).trans (frame.rings rfl)
      · exact (walk_matched_kept of settling u).2.trans (frame.rings rfl)
    case pc => exact (pc_walk_of_not of (by rw [frame.pc rfl]; exact not)).trans (frame.pc rfl)
    case begins =>
      obtain ⟨w, same, opened', goes', pc, executor⟩ := pathCheck_walk perm (beside (by rw [waiting]; nofun)) opens goes
      rw [pathCheckBoundary_of_waiting (by rw [same.pc]; exact on) goes'.2 (by rw [same.pc]; exact waiting), opened'.1] at pc executor
      exact ⟨pc, executor.queue.trans same.executor.queue, executor.cx.trans same.executor.cx,
        executor.answers.trans same.executor.answers⟩
    case completes =>
      obtain ⟨w, same, -, -, pc, executor⟩ := pathCheck_walk perm (beside (by rw [checking]; nofun)) opens goes
      obtain ⟨pc', executor'⟩ := pathCheckBoundary_congr same.pc same.executor on checking
      have answered := executor'.trans executor
      exact ⟨pc.trans pc', answered.queue, answered.cx, answered.answers⟩

end Machine
end Sys2Proof
end

section
/-! PROOF. The parts of an instant of domain 8: what each changes, and what a run of them does (R11, R49, R64, R66, R69, R102, R131, R135, R137, R168). -/

namespace Sys2Proof
namespace Machine

/-! ## Runs of parts -/

section
variable {ticks : List LineSet} {carried : Bool}

theorem takeParts_cons (taken : List Part) (p : Part) (rest : List Part) (s : State) :
    takeParts ticks carried taken (p :: rest) s =
      takeParts ticks carried (p :: taken) rest (instantPart carried (ticks.getD (taken.count p) s.lineIn) p s) := rfl

theorem takeParts_append (taken a b : List Part) (s : State) : takeParts ticks carried taken (a ++ b) s =
    takeParts ticks carried (a.reverse ++ taken) b (takeParts ticks carried taken a s) := by
  induction a generalizing taken s with
  | nil => rfl
  | cons p a ih =>
    rw [List.cons_append, takeParts_cons, ih, takeParts_cons, List.reverse_cons, List.append_assoc]
    rfl

/-- What each part of a run keeps the run keeps, whatever line inputs its ticks have. -/
theorem takeParts_holds {P : State → Prop} {parts : List Part} (keep : ∀ p ∈ parts, ∀ lines s, P s → P (instantPart carried lines p s))
    (taken : List Part) {s : State} (h : P s) : P (takeParts ticks carried taken parts s) := by
  induction parts generalizing taken s with
  | nil => exact h
  | cons p rest ih =>
    exact ih (fun q mem => keep q (List.mem_cons_of_mem _ mem)) _ (keep p List.mem_cons_self _ s h)

end

/-! ## The blocks each part changes -/

/-- The blocks that a part of an instant of domain 8 changes. -/
def instantTouch (p : Part) : Touch :=
  match p with
  | .emission => { tpt := true, ramps := true, log := true, mgmt := true, clips := true, cm := true, lineOut := true, ru := true }
  | .lineWrite _ => { rings := true, tpt := true, log := true, mgmt := true }
  | .lineOffer _ => { watch := true }
  | .takePoints => { tpt := true }
  | .switch => { tpt := true, ramps := true, fmt := true, active := true, ce := true, cues := true, log := true, mgmt := true }
  | .clips => { clips := true, log := true, mgmt := true }
  | .presence _ => { watch := true, log := true, mgmt := true }
  | .silence => { mgmt := true }
  | .absence _ | .cadence _ | .dueCount | .pathCheck | .settle | .leaveLocked | .stop => {}

/-- Domain 8 emits for no output feed (R58). -/
theorem frame_emission_line (s : State) : Frame { tpt := true, ramps := true, log := true, mgmt := true, clips := true, cm := true, lineOut := true } s
    (emission domain8 s) := by
  have frame := frame_emission s domain8
  exact { frame with fmt := fun _ => (emission_line s).1 }

theorem instantPart_frame (carried : Bool) (lines : LineSet) (p : Part) (s : State) :
    Frame (instantTouch p) s (instantPart carried lines p s) := by
  cases p with
  | emission => exact ((frame_emission_line s).mono).trans ((frame_setRu _ _).mono)
  | lineWrite n => exact frame_writeLineRing s lines n
  | lineOffer l => exact frame_offerLine s lines l
  | takePoints => exact frame_judgeTakePoints s _
  | switch => exact frame_switchAt s _ _
  | clips => exact frame_handOverClips s _
  | presence l => exact Frame.ite (frame_judgeTrack s _) (Frame.refl _ s)
  | silence => exact frame_countSilence s
  | absence | cadence | dueCount | pathCheck | settle | leaveLocked | stop => exact Frame.refl _ s

section
variable {p : Part}

theorem instantTouch_commit (notSwitch : p ≠ .switch) : (instantTouch p).ce = false ∧ (instantTouch p).active = false ∧
    (instantTouch p).fmt = false ∧ (instantTouch p).cues = false := by
  cases p with
  | switch => exact absurd rfl notSwitch
  | _ => exact ⟨rfl, rfl, rfl, rfl⟩

theorem instantTouch_ramps (notSwitch : p ≠ .switch) (notEmission : p ≠ .emission) : (instantTouch p).ramps = false := by
  cases p with
  | switch => exact absurd rfl notSwitch
  | emission => exact absurd rfl notEmission
  | _ => rfl

theorem instantTouch_ru (notEmission : p ≠ .emission) :
    (instantTouch p).ru = false ∧ (instantTouch p).lineOut = false ∧ (instantTouch p).cm = false := by
  cases p with
  | emission => exact absurd rfl notEmission
  | _ => exact ⟨rfl, rfl, rfl⟩

theorem instantTouch_rings (notWrite : ∀ n, p ≠ .lineWrite n) : (instantTouch p).rings = false := by
  cases p with
  | lineWrite n => exact absurd rfl (notWrite n)
  | _ => rfl

/-- What no part of an instant of domain 8 changes: the FRs, the PC and the line inputs. -/
theorem instantTouch_never (p : Part) : (instantTouch p).fr = false ∧ (instantTouch p).pc = false ∧ (instantTouch p).lineIn = false ∧
    (instantTouch p).pins = false := by
  cases p <;> exact ⟨rfl, rfl, rfl, rfl⟩

end

/-! ## The commit and the uses of the records -/

section
variable {carried : Bool} {lines : LineSet} {p : Part}

theorem instantPart_lineWrite (n : LineQuad) (s : State) : instantPart carried lines (.lineWrite n) s =
    writeEvent (lineRing n) [lineQuadSet lines n] s := rfl

theorem countSilence_sameExecutor (s : State) : SameExecutor s (countSilence s) :=
  keeps_ite (P := SameExecutor s) ⟨rfl, rfl, rfl, rfl⟩ (SameExecutor.refl s)

/-- A part that is not the switch leaves the executor. -/
theorem instantPart_sameExecutor (notSwitch : p ≠ .switch) (s : State) : SameExecutor s (instantPart carried lines p s) := by
  cases p with
  | emission => exact .of_told (told_emitTick s)
  | lineWrite n =>
    rw [instantPart_lineWrite]
    exact .of_told (told_writeEvent _ _ s)
  | lineOffer l => exact .of_frame (frame_offerLine s lines l)
  | takePoints => exact .of_frame (frame_judgeTakePoints s _)
  | switch => exact absurd rfl notSwitch
  | clips => exact .of_told (told_handOverClips _ s)
  | presence l => exact keeps_ite (P := SameExecutor s) (.of_told (told_judgeTrack _ s)) (SameExecutor.refl s)
  | silence => exact countSilence_sameExecutor s
  | absence | cadence | dueCount | pathCheck | settle | leaveLocked | stop => exact SameExecutor.refl s

theorem instantPart_keepsCommit (notSwitch : p ≠ .switch) (s : State) : KeepsCommit s (instantPart carried lines p s) := by
  have frame := instantPart_frame carried lines p s
  obtain ⟨ce, active, -⟩ := instantTouch_commit notSwitch
  exact ⟨frame.ce ce, frame.active active, fun _ => frame.pc (instantTouch_never p).2.1, fun _ => instantPart_sameExecutor notSwitch s⟩

theorem sameUses_writeLineRing (lines : LineSet) (n : LineQuad) (s : State) : SameUses s.tpt (writeLineRing lines n s).tpt := by
  have moved := walk_holds (P := fun t => SameUses s.tpt t.tpt) (List.finRange 64) (f := overrunRecord (lineRing n))
    (fun i _ t h => keeps_ite (P := fun u : State => SameUses s.tpt u.tpt) (h.trans (sameUses_recentre i t)) h)
    (s.setRing (lineRing n) ([lineQuadSet lines n].foldl Ring.push (s.rings.get (lineRing n)))) (SameUses.refl _)
  exact moved

/-- A part that is neither the switch nor the emission leaves the uses of the records. -/
theorem instantPart_sameUses (notSwitch : p ≠ .switch) (notEmission : p ≠ .emission) (s : State) :
    SameUses s.tpt (instantPart carried lines p s).tpt := by
  cases p with
  | emission => exact absurd rfl notEmission
  | lineWrite n => exact sameUses_writeLineRing lines n s
  | lineOffer l => exact .of_frame (frame_offerLine s lines l)
  | takePoints => exact sameUses_judgeTakePoints _ s
  | switch => exact absurd rfl notSwitch
  | clips => exact .of_frame (frame_handOverClips s _)
  | presence l => exact .of_frame (instantPart_frame carried lines (.presence l) s)
  | silence => exact .of_frame (frame_countSilence s)
  | absence | cadence | dueCount | pathCheck | settle | leaveLocked | stop => exact SameUses.refl _

end

section
variable {ticks : List LineSet} {carried : Bool} {parts taken : List Part} {s : State}

theorem takeParts_keepsCommit (of : .switch ∉ parts) : KeepsCommit s (takeParts ticks carried taken parts s) :=
  takeParts_holds (P := KeepsCommit s) (fun p mem _ u h =>
    h.trans (instantPart_keepsCommit (fun same : p = .switch => of (same ▸ mem)) u)) taken (KeepsCommit.refl s)

/-- Without a switch and an emission the records' uses and the ramps stay. -/
theorem takeParts_sameUses (notSwitch : .switch ∉ parts) (notEmission : .emission ∉ parts) :
    SameUses s.tpt (takeParts ticks carried taken parts s).tpt ∧ (takeParts ticks carried taken parts s).ramps = s.ramps :=
  takeParts_holds (P := fun u => SameUses s.tpt u.tpt ∧ u.ramps = s.ramps) (fun p mem lines u h => by
    have noSwitch : p ≠ .switch := fun same => notSwitch (same ▸ mem)
    have noEmission : p ≠ .emission := fun same => notEmission (same ▸ mem)
    exact ⟨h.1.trans (instantPart_sameUses noSwitch noEmission u),
      ((instantPart_frame carried lines p u).ramps (instantTouch_ramps noSwitch noEmission)).trans h.2⟩)
    taken ⟨SameUses.refl _, rfl⟩

/-! ## The Reference Unit and the rings -/

theorem instantPart_ru (lines : LineSet) (p : Part) (s : State) :
    (instantPart carried lines p s).ru = { s.ru with ticks := s.ru.ticks + [p].count .emission } := by
  by_cases emission : p = .emission
  · subst emission
    have ru : (Machine.emission domain8 s).ru = s.ru := (frame_emission_line s).ru rfl
    exact congrArg (fun r : Reference => { r with ticks := r.ticks + 1 }) ru
  · rw [(instantPart_frame carried lines p s).ru (instantTouch_ru emission).1, List.count_eq_zero.2]
    · rfl
    · exact fun mem => emission (List.mem_singleton.1 mem).symm

theorem count_cons_singleton (a p : Part) (rest : List Part) : (p :: rest).count a = [p].count a + rest.count a :=
  List.count_append (l₁ := [p]) (l₂ := rest)

/-- A run of parts counts its emissions in the frame's ticks (R11). -/
theorem takeParts_ru (ticks : List LineSet) (carried : Bool) (taken parts : List Part) (s : State) :
    (takeParts ticks carried taken parts s).ru = { s.ru with ticks := s.ru.ticks + parts.count .emission } := by
  induction parts generalizing taken s with
  | nil => rfl
  | cons p rest ih =>
    rw [takeParts_cons, ih, instantPart_ru, count_cons_singleton _ p rest]
    simp only [Nat.add_assoc]

/-- A part of an instant changes no ring but the line ring it writes (R49). -/
theorem instantPart_rings (lines : LineSet) (p : Part) {r : RingNo} (other : ∀ n, lineRing n = r → p ≠ .lineWrite n) (s : State) :
    (instantPart carried lines p s).rings.get r = s.rings.get r := by
  by_cases write : ∃ n, p = .lineWrite n
  · obtain ⟨n, rfl⟩ := write
    rw [instantPart_lineWrite, writeEvent_rings]
    exact Table.get_set_other _ _ _ _ fun same => other n same rfl
  · rw [(instantPart_frame carried lines p s).rings (instantTouch_rings fun n same => write ⟨n, same⟩)]

theorem lineRing_injective : Function.Injective lineRing := fun a b same => Fin.ext (by
  have val := congrArg Fin.val same
  simp only [lineRing] at val
  omega)

theorem instantPart_written (lines : LineSet) (p : Part) (n : LineQuad) (s : State) :
    ((instantPart carried lines p s).rings.get (lineRing n)).written =
      (s.rings.get (lineRing n)).written + [p].count (.lineWrite n) := by
  by_cases write : p = .lineWrite n
  · subst write
    rw [instantPart_lineWrite, writeEvent_written, List.count_singleton_self]
    rfl
  · have none : [p].count (.lineWrite n) = 0 := List.count_eq_zero.2 fun mem => write (List.mem_singleton.1 mem).symm
    rw [none, instantPart_rings lines p fun m same => lineRing_injective same ▸ write]
    rfl

/-- A run of parts writes a line ring once for each of its writes (R49). -/
theorem takeParts_written (ticks : List LineSet) (carried : Bool) (taken parts : List Part) (n : LineQuad) (s : State) :
    ((takeParts ticks carried taken parts s).rings.get (lineRing n)).written =
      (s.rings.get (lineRing n)).written + parts.count (.lineWrite n) := by
  induction parts generalizing taken s with
  | nil => rfl
  | cons p rest ih =>
    rw [takeParts_cons, ih, instantPart_written, count_cons_singleton _ p rest, Nat.add_assoc]

/-- No part of an instant of domain 8 changes a feed ring (R49). -/
theorem instantPart_feedRings (lines : LineSet) (p : Part) (s : State) {r : RingNo} (feed : r.val < 32) :
    (instantPart carried lines p s).rings.get r = s.rings.get r := by
  refine instantPart_rings lines p (fun n same => ?_) s
  rw [← same] at feed
  simp only [lineRing] at feed
  omega

theorem takeParts_feedRings {r : RingNo} (feed : r.val < 32) :
    (takeParts ticks carried taken parts s).rings.get r = s.rings.get r :=
  takeParts_holds (P := fun u => u.rings.get r = s.rings.get r)
    (fun p _ lines u h => (instantPart_feedRings lines p u feed).trans h) taken rfl

theorem takeParts_lineIn : (takeParts ticks carried taken parts s).lineIn = s.lineIn :=
  takeParts_holds (P := fun u => u.lineIn = s.lineIn)
    (fun p _ lines u h => ((instantPart_frame carried lines p u).lineIn (instantTouch_never p).2.2.1).trans h) taken rfl

end

end Machine
end Sys2Proof
end

section
/-! PROOF. The ticks of an instant of domain 8 and its frame end: the Reference Unit, the line rings and the commit in flight (R11, R12, R49, R102, R144). -/

namespace Sys2Proof
namespace Machine

/-! ## What the ticks bring -/

section
variable (ticks : List LineSet) (order frameOrder : List Part)

theorem count_ticks (a : Part) : (ticks.flatMap fun _ => tickParts).count a = ticks.length * tickParts.count a := by
  induction ticks with
  | nil => exact (Nat.zero_mul _).symm
  | cons lines ticks ih => rw [List.flatMap_cons, List.count_append, ih, List.length_cons, Nat.succ_mul, Nat.add_comm]

theorem count_before_with (a : Part) : (beforeFrameEnd ticks order frameOrder).count a +
    (withFrameEnd ticks order frameOrder).count a = ticks.length * tickParts.count a := by
  rw [← List.count_append, (before_append_with_perm ticks order frameOrder).count_eq, count_ticks]

theorem count_emission_with : (withFrameEnd ticks order frameOrder).count .emission = 0 :=
  List.count_eq_zero.2 fun mem => (mem_withFrameEnd mem).2 rfl

/-- Every emission of the ticks comes before the frame end (R11, R66). -/
theorem count_emission_before : (beforeFrameEnd ticks order frameOrder).count .emission = ticks.length := by
  have all := count_before_with ticks order frameOrder .emission
  have one : tickParts.count .emission = 1 := by decide
  rw [count_emission_with, one, Nat.mul_one] at all
  exact all

theorem count_lineWrite_tickParts (n : LineQuad) : tickParts.count (.lineWrite n) = 1 := by
  have each : ∀ m : LineQuad, tickParts.count (.lineWrite m) = 1 := by decide
  exact each n

theorem count_lineWrite (n : LineQuad) : (beforeFrameEnd ticks order frameOrder).count (.lineWrite n) +
    (withFrameEnd ticks order frameOrder).count (.lineWrite n) = ticks.length := by
  rw [count_before_with, count_lineWrite_tickParts, Nat.mul_one]

theorem switch_notMem_ticks : .switch ∉ beforeFrameEnd ticks order frameOrder ∧ .switch ∉ withFrameEnd ticks order frameOrder := by
  have all := count_before_with ticks order frameOrder .switch
  have none : tickParts.count .switch = 0 := by decide
  rw [none] at all
  exact ⟨List.count_eq_zero.1 (by omega), List.count_eq_zero.1 (by omega)⟩

theorem count_frameEnd (a : Part) : (schedule frameOrder (frameParts ++ withFrameEnd ticks order frameOrder)).count a =
    frameParts.count a + (withFrameEnd ticks order frameOrder).count a := by
  rw [(schedule_perm _ _).count_eq, List.count_append]

end

/-! ## The Reference Unit and the line rings -/

section
variable (ticks : List LineSet) (order frameOrder : List Part) (s : State)

theorem runTicks_ru : (runTicks ticks order frameOrder s).ru = { s.ru with ticks := s.ru.ticks + ticks.length } := by
  unfold runTicks
  rw [takeParts_ru, count_emission_before]

theorem runningTicks_ru : (runningTicks ticks order frameOrder s).ru = { s.ru with ticks := s.ru.ticks + ticks.length } := by
  unfold runningTicks
  rw [takeParts_ru, (schedule_perm _ _).count_eq, count_emission_with, runTicks_ru]
  rfl

theorem turnFrame8_ru (realign : Bool) : (turnFrame8 realign s).ru = s.ru.frameEnded realign := rfl

theorem endingTicks_ru (realign : Bool) : (endingTicks realign ticks order frameOrder s).ru = s.ru.frameEnded realign := by
  have none : frameParts.count .emission = 0 := by decide
  unfold endingTicks
  rw [takeParts_ru, count_frameEnd, count_emission_with, none, turnFrame8_ru, runTicks_ru]
  rfl

theorem runTicks_written (n : LineQuad) : ((runTicks ticks order frameOrder s).rings.get (lineRing n)).written =
    (s.rings.get (lineRing n)).written + (beforeFrameEnd ticks order frameOrder).count (.lineWrite n) :=
  takeParts_written ..

theorem runningTicks_written (n : LineQuad) : ((runningTicks ticks order frameOrder s).rings.get (lineRing n)).written =
    (s.rings.get (lineRing n)).written + ticks.length := by
  unfold runningTicks
  rw [takeParts_written, (schedule_perm _ _).count_eq, runTicks_written, Nat.add_assoc, count_lineWrite]

theorem turnFrame8_rings (realign : Bool) : (turnFrame8 realign s).rings = s.rings := rfl

theorem endingTicks_written (realign : Bool) (n : LineQuad) :
    ((endingTicks realign ticks order frameOrder s).rings.get (lineRing n)).written =
      (s.rings.get (lineRing n)).written + ticks.length := by
  have each : ∀ m : LineQuad, frameParts.count (.lineWrite m) = 0 := by decide
  unfold endingTicks
  rw [takeParts_written, count_frameEnd, each n, Nat.zero_add, turnFrame8_rings, runTicks_written, Nat.add_assoc,
    count_lineWrite]

end

end Machine
end Sys2Proof
end

section
/-! PROOF. The switch of domain 8 among the parts of a frame end, and the ticks that may follow it (R69, R102, R106, R115). -/

namespace Sys2Proof
namespace Machine

/-! ## The emission after a completion -/

theorem emission_get_domain (d : Domain) (i : RecordNo) (s : State) : ((emission d s).tpt.get i).domain = (s.tpt.get i).domain := by
  obtain ⟨-, domain, -⟩ := advancedTake_keeps d (s.rings.get (s.tpt.get i).ring).written (s.tpt.get i)
  rw [emission_get]
  dsimp only
  split
  · exact (TakePoint.pair_freedIfUnused _).2.1.trans domain
  · exact domain

/-- No ramp of domain 8 is at its last emission, and no record waits to be freed. -/
structure Settled (s : State) : Prop where
  ramps : ∀ x, destDomain x = domain8 → ∀ r, s.ramps.get x = some r → r.next ≠ none
  used : ∀ i, (s.tpt.get i).Used

section
variable {s t : State}

theorem Settled.of_sameUses (h : Settled s) (uses : SameUses s.tpt t.tpt) (ramps : t.ramps = s.ramps) : Settled t where
  ramps := by
    rw [ramps]
    exact h.ramps
  used i := by
    unfold TakePoint.Used
    rw [(uses i).free, (uses i).references, (uses i).reserved]
    exact h.used i

theorem Settled.releasedIn (h : Settled s) : releasedIn Ramp.next domain8 s = [] := by
  refine List.flatMap_eq_nil_iff.2 fun x mem => ?_
  unfold released
  cases ramp : s.ramps.get x with
  | none => rfl
  | some r =>
    have goesOn := h.ramps x ((mem_domainDests _ _).1 mem) r ramp
    rw [Option.elim_some, if_neg fun ends => goesOn (Option.isNone_iff_eq_none.1 ends)]

/-- A record with a use keeps its state where unused records are freed. -/
theorem TakePoint.Used.freed_state {tp : TakePoint} (h : tp.Used) :
    (if tp.references = 0 ∧ tp.reserved = false then TpState.free else tp.state) = tp.state := by
  split
  · rename_i unused
    obtain ⟨references, reserved⟩ := unused
    rcases h with free | named | kept
    · exact free.symm
    · omega
    · exact absurd kept (reserved ▸ Bool.false_ne_true)
  · rfl

/-- Where no ramp ends and no record waits to be freed, an emission leaves the uses of the records. -/
theorem Settled.emission_sameUses (h : Settled s) : SameUses s.tpt (emission domain8 s).tpt := fun i => by
  by_cases other : (s.tpt.get i).domain ≠ domain8 ∨ (s.tpt.get i).state = .free
  · rw [emission_get_other other]
    exact TakePoint.SameUse.refl _
  · push Not at other
    obtain ⟨on, held⟩ := other
    obtain ⟨ring, state, references, reserved⟩ := emission_get_used on held
    rw [h.releasedIn, List.count_nil, Nat.sub_zero] at references state
    rw [(h.used i).freed_state] at state
    exact ⟨by rw [state], ring, emission_get_domain _ i s, references, reserved⟩

end

section
variable {ticks : List LineSet} {carried : Bool} {parts taken : List Part} {s : State}

theorem Settled.emission_part (h : Settled s) (lines : LineSet) : SameUses s.tpt (instantPart carried lines .emission s).tpt :=
  h.emission_sameUses

/-- So do parts of an instant that hold one emission and no switch. -/
theorem takeParts_sameUses_of_settled (h : Settled s) (once : parts.count .emission = 1) (notSwitch : .switch ∉ parts) :
    SameUses s.tpt (takeParts ticks carried taken parts s).tpt := by
  obtain ⟨pre, post, split, sides⟩ := exists_split (List.Perm.refl parts) once
  have besides : ∀ l : List Part, (∀ p ∈ l, p ∈ pre ∨ p ∈ post) → Part.switch ∉ l ∧ Part.emission ∉ l := fun l side =>
    ⟨fun mem => notSwitch (sides _ (side _ mem)).1, fun mem => (sides _ (side _ mem)).2 rfl⟩
  obtain ⟨pre_switch, pre_emission⟩ := besides pre fun p => Or.inl
  obtain ⟨post_switch, post_emission⟩ := besides post fun p => Or.inr
  rw [split, takeParts_append, takeParts_cons]
  obtain ⟨before, ramps⟩ := takeParts_sameUses (ticks := ticks) (carried := carried) (taken := taken) (s := s) pre_switch pre_emission
  have settled := h.of_sameUses before ramps
  exact (before.trans (settled.emission_part _)).trans (takeParts_sameUses post_switch post_emission).1

end

section
variable {s : State} {order frameOrder : List Part}

theorem runTicks_keepsCommit (ticks : List LineSet) (order frameOrder : List Part) (s : State) :
    KeepsCommit s (runTicks ticks order frameOrder s) := by
  have presented : KeepsCommit s { s with lineIn := ticks.getLastD s.lineIn } := .of_frame (frame_setLineIn s _)
  exact presented.trans (takeParts_keepsCommit (switch_notMem_ticks ticks order frameOrder).1)

theorem switch_notMem_held (ticks : List LineSet) (order frameOrder : List Part) :
    .switch ∉ schedule frameOrder (withFrameEnd ticks order frameOrder) :=
  fun mem => (switch_notMem_ticks ticks order frameOrder).2 ((schedule_perm _ _).mem_iff.1 mem)

theorem runningTicks_keepsCommit (ticks : List LineSet) (order frameOrder : List Part) (s : State) :
    KeepsCommit s (runningTicks ticks order frameOrder s) :=
  (runTicks_keepsCommit ticks order frameOrder s).trans (takeParts_keepsCommit (switch_notMem_held ticks order frameOrder))

/-- One tick that no frame end follows leaves the uses of the records, where no ramp ends and no record waits to be freed. -/
theorem runningTicks_sameUses (h : Settled s) (lines : LineSet) (order frameOrder : List Part) :
    SameUses s.tpt (runningTicks [lines] order frameOrder s).tpt := by
  have ran : SameUses s.tpt (runTicks [lines] order frameOrder s).tpt :=
    takeParts_sameUses_of_settled (s := { s with lineIn := [lines].getLastD s.lineIn }) ⟨h.ramps, h.used⟩
      (count_emission_before [lines] order frameOrder) (switch_notMem_ticks [lines] order frameOrder).1
  refine ran.trans (takeParts_sameUses (switch_notMem_held [lines] order frameOrder) fun mem => ?_).1
  exact (mem_withFrameEnd ((schedule_perm _ _).mem_iff.1 mem)).2 rfl

end

/-! ## The switch in a frame end -/

/-- From s to t domain d switches among parts that leave the commit, and none after it changes a use or a ramp. -/
def SwitchedAmong (d : Domain) (s t : State) : Prop := ∃ u, KeepsCommit s u ∧ KeepsCommit (switchAt d true u) t ∧
  SameUses (switchAt d true u).tpt t.tpt ∧ t.ramps = (switchAt d true u).ramps

/-- A ramp that begins goes on at its first emission (R104). -/
theorem newRamp_next {running : Bool} {p a : Bank} {x : Dest} {r : Ramp} (h : newRamp running p a x = some r) : r.next ≠ none := by
  unfold newRamp at h
  split at h
  · rename_i begins
    obtain ⟨-, -, -, -, ramp⟩ := (rampBegins_iff running p a x).1 begins
    cases h
    unfold Ramp.next
    cases code : (p.entries.get x).ramp with
    | none => exact absurd code ramp
    | short | medium | long => exact nofun
  · cases h

theorem completedPart_ramps {c : InFlight} {s : State} : (completedPart c s).ramps = s.ramps := (frame_endCommit _ c).ramps rfl

theorem switchedPart_ramps {d : Domain} {running : Bool} {c : InFlight} {s : State} :
    (switchedPart d running c s).ramps = (switchTo d running c.snapshot s).ramps := rfl

theorem TakePoint.used_unreserved (tp : TakePoint) :
    TakePoint.Used { tp with reserved := false, state := if tp.references = 0 then .free else tp.state } := by
  by_cases unused : tp.references = 0
  · exact Or.inl (if_pos unused)
  · exact Or.inr (Or.inl (Nat.pos_of_ne_zero unused))

section
variable {d : Domain} {s t u : State}

theorem SwitchedAmong.before (k : KeepsCommit s t) (h : SwitchedAmong d t u) : SwitchedAmong d s u := by
  obtain ⟨v, before, after⟩ := h
  exact ⟨v, k.trans before, after⟩

theorem SwitchedAmong.switchesCommit (h : SwitchedAmong d s t) (one : OneCommand s) : SwitchesCommit d s t := by
  obtain ⟨u, before, after, uses, -⟩ := h
  exact SwitchesCommit.among one before after fun _ _ _ _ _ => usedCount_eq_of_sameUses uses

/-- What follows the switch may change uses as long as it leaves them where the switch completes the commit. -/
theorem SwitchedAmong.switchesCommit_then (h : SwitchedAmong domain8 s t) (one : OneCommand s) (k : KeepsCommit t u)
    (uses : Settled t → SameUses t.tpt u.tpt) : SwitchesCommit domain8 s u := by
  obtain ⟨v, before, after, same, ramps⟩ := h
  refine SwitchesCommit.among one before (after.trans k) fun c flight waiting not others => ?_
  have e := switchAt_last_eq (running := true) flight waiting not others
  have settled : Settled (switchAt domain8 true v) := by
    refine ⟨fun x on r ramp => ?_, fun i => ?_⟩
    · rw [e, completedPart_ramps, switchedPart_ramps, switchTo_ramps, if_pos on] at ramp
      exact newRamp_next ramp
    · rw [e, completedPart_tpt, unreserve_get]
      exact TakePoint.used_unreserved _
  exact usedCount_eq_of_sameUses (same.trans (uses (settled.of_sameUses same ramps)))

end

theorem endingTicks_switches (realign : Bool) (ticks : List LineSet) (order frameOrder : List Part) (s : State) :
    SwitchedAmong domain8 s (endingTicks realign ticks order frameOrder s) := by
  have turned : KeepsCommit (runTicks ticks order frameOrder s) (turnFrame8 realign (runTicks ticks order frameOrder s)) :=
    .of_frame (frame_turnFrame8 _ realign)
  refine SwitchedAmong.before ((runTicks_keepsCommit ticks order frameOrder s).trans turned) ?_
  have once : (frameParts ++ withFrameEnd ticks order frameOrder).count .switch = 1 := by
    have one : frameParts.count .switch = 1 := by decide
    rw [List.count_append, one, List.count_eq_zero.2 (switch_notMem_ticks ticks order frameOrder).2]
  have noEmission : .emission ∉ frameParts ++ withFrameEnd ticks order frameOrder := by
    rw [List.mem_append, not_or]
    exact ⟨by decide, fun mem => (mem_withFrameEnd mem).2 rfl⟩
  obtain ⟨pre, post, split, sides⟩ := exists_split (schedule_perm frameOrder _) once
  unfold endingTicks
  rw [split, takeParts_append, takeParts_cons]
  have besides : ∀ l : List Part, (∀ p ∈ l, p ∈ pre ∨ p ∈ post) → Part.switch ∉ l ∧ Part.emission ∉ l := fun l side =>
    ⟨fun mem => (sides _ (side _ mem)).2 rfl, fun mem => noEmission (sides _ (side _ mem)).1⟩
  obtain ⟨pre_switch, -⟩ := besides pre fun p => Or.inl
  obtain ⟨post_switch, post_emission⟩ := besides post fun p => Or.inr
  obtain ⟨uses, ramps⟩ := takeParts_sameUses post_switch post_emission
  exact ⟨_, takeParts_keepsCommit pre_switch, takeParts_keepsCommit post_switch, uses, ramps⟩

end Machine
end Sys2Proof
end

section
/-! PROOF. Pulses, time-outs and the loss of the reference (R11, R12, R13, R14, R41, R102). -/

namespace Sys2Proof
namespace Machine

/-! ## The events case by case -/

section
variable (e : Time) (owed : OwedTicks) (frameOrder : List Part) {s : State}

/-- The ticks owed at a frame end are all that the frame lacks (R12). -/
theorem length_owedBy (lines : List LineSet) (s : State) : (owedBy lines s).length = frameTicks s.ru - s.ru.ticks := by
  unfold owedBy owedTicks
  rw [List.length_take, List.length_append, List.length_replicate]
  omega

/-- The part when time has passed and a pulse has taken its RU from FREE to LOCKED (R14). -/
def restored (e : Time) (s : State) : State := (passTime e s).setRu { (passTime e s).ru with state := .locked }

theorem pulseEvent_of_free (free : s.ru.state = .free) : pulseEvent e owed frameOrder s =
    pulseSeen (report .referenceRestored .reference (endingTicks true [] [] frameOrder (restored e s))) := by
  have state : (passTime e s).ru.state = .free := free
  unfold pulseEvent
  dsimp only
  rw [state]
  rfl

theorem pulseEvent_of_locked (locked : s.ru.state = .locked) : pulseEvent e owed frameOrder s = pulseSeen
    (if nominalPeriod s.ru.format ≤ 2 * (s.ru.sinceFrame + e) then
      endingTicks false (owedBy owed.lines (passTime e s)) owed.order frameOrder (passTime e s)
    else passTime e s) := by
  have state : (passTime e s).ru.state = .locked := locked
  unfold pulseEvent
  dsimp only
  rw [state, apply_ite pulseSeen]
  rfl

end

/-! ## What their frame ends leave -/

section
variable {s : State}

/-- Without ticks a frame end writes no ring. -/
theorem endingTicks_rings (realign : Bool) (frameOrder : List Part) (s : State) :
    (endingTicks realign [] [] frameOrder s).rings = s.rings := by
  have each : ∀ n : LineQuad, frameParts.count (.lineWrite n) = 0 := by decide
  have kept (parts : List Part) (of : ∀ n, parts.count (.lineWrite n) = 0) (carried : Bool) (taken : List Part) (u : State) :
      (takeParts [] carried taken parts u).rings = u.rings :=
    takeParts_holds (P := fun v => v.rings = u.rings) (fun p mem lines v h =>
      ((instantPart_frame carried lines p v).rings (instantTouch_rings fun n same =>
        List.count_eq_zero.1 (of n) (same ▸ mem))).trans h) taken rfl
  have none (n : LineQuad) := count_lineWrite [] [] frameOrder n
  unfold endingTicks
  rw [kept _ fun n => ?_, turnFrame8_rings, runTicks, kept _ fun n => ?_]
  · exact Nat.eq_zero_of_add_eq_zero_right (none n)
  · rw [count_frameEnd, each n, Nat.zero_add]
    exact Nat.eq_zero_of_add_eq_zero_left (none n)

theorem keepsCommit_passTime (e : Time) (s : State) : KeepsCommit s (passTime e s) := .of_frame (frame_passTime s e)

theorem keepsCommit_restored (e : Time) (s : State) : KeepsCommit s (restored e s) :=
  (keepsCommit_passTime e s).trans (.of_frame (frame_setRu _ _))

theorem keepsCommit_pulseSeen (s : State) : KeepsCommit s (pulseSeen s) := .of_frame (frame_setRu _ _)

theorem keepsCommit_report (reason : Reason) (src : FaultSource) (s : State) : KeepsCommit s (report reason src s) :=
  .of_told (frame_report s reason src) (told_report reason src s)

/-- The frame end of a pulse or a time-out: the RU's next frame, domain 8 switched, and a write of each line ring for each tick owed. -/
theorem owedFrameEnd (quiet : s.quiet = true) (e : Time) (owed : OwedTicks) (frameOrder : List Part) :
    let t := endingTicks false (owedBy owed.lines (passTime e s)) owed.order frameOrder (passTime e s)
    t.ru = (passTime e s).ru.frameEnded false ∧ SwitchesCommit domain8 s t ∧ SwitchesCommit domain8 s (pulseSeen t) ∧
      ∀ n : LineQuad, (t.rings.get (lineRing n)).written =
        (s.rings.get (lineRing n)).written + (frameSets s.ru.format s.ru.phase - s.ru.ticks) := by
  have one := oneCommand_of_quiet quiet
  have switched := (endingTicks_switches false (owedBy owed.lines (passTime e s)) owed.order frameOrder (passTime e s)).before
    (keepsCommit_passTime e s)
  refine ⟨endingTicks_ru _ _ _ _ _, switched.switchesCommit one,
    switched.switchesCommit_then one (keepsCommit_pulseSeen _) fun _ => SameUses.refl _, fun n => ?_⟩
  rw [endingTicks_written, length_owedBy]
  rfl

end

/-- The phase of the frame that follows one that is not realigned (R41). -/
theorem frameEnded_eq (r : Reference) : r.frameEnded false = { r with
    frameCount := r.frameCount + 1, format := r.pendingFormat.getD r.format, pendingFormat := none,
    phase := if r.pendingFormat = none then (r.phase + 1) % cadenceLength r.format else 0,
    ticks := 0, sinceFrame := 0 } := by
  unfold Reference.frameEnded
  cases r.pendingFormat <;> rfl

theorem frameEnded_realigned (r : Reference) : r.frameEnded true = { r with
    frameCount := r.frameCount + 1, format := r.pendingFormat.getD r.format, pendingFormat := none, phase := 0,
    ticks := 0, sinceFrame := 0 } := by
  unfold Reference.frameEnded
  rw [Bool.or_true, if_pos rfl]

/-! ## The events of a quiet part -/

theorem noneWaits_referenceLostEvent (e : Time) : LeavesNoneWaiting (referenceLostEvent e) := fun s h => by
  have free : ((passTime e s).setRu { (passTime e s).ru with state := .free }).noneWaits = true := h
  exact keeps_ite (P := fun t => t.noneWaits = true) (noneWaits_of_told free (told_report .referenceLost .reference _)) h

section
variable {s : State} (e : Time) (owed : OwedTicks) (frameOrder : List Part)

theorem exec_referencePulse_of_quiet (quiet : s.quiet = true) :
    exec (.referencePulse e owed frameOrder) s = .next (pulseEvent e owed frameOrder s) :=
  congrArg Host.Outcome.next (event_of_quiet (noneWaits_pulseEvent e owed frameOrder) quiet)

theorem exec_referenceWaitTimeout_of_quiet (quiet : s.quiet = true) :
    exec (.referenceWaitTimeout e owed frameOrder) s = .next (waitTimeoutEvent e owed frameOrder s) :=
  congrArg Host.Outcome.next (event_of_quiet (noneWaits_waitTimeoutEvent e owed frameOrder) quiet)

theorem exec_referenceLost_of_quiet (quiet : s.quiet = true) : exec (.referenceLost e) s = .next (referenceLostEvent e s) :=
  congrArg Host.Outcome.next (event_of_quiet (noneWaits_referenceLostEvent e) quiet)

theorem pulse_in_free (quiet : s.quiet = true) (free : s.ru.state = .free) :
    ∃ t, exec (.referencePulse e owed frameOrder) s = .next t ∧ t.ru = { s.ru with
        frameCount := s.ru.frameCount + 1, format := s.ru.pendingFormat.getD s.ru.format, pendingFormat := none,
        state := .locked, phase := 0, ticks := 0, sincePulse := 0, sinceFrame := 0 } ∧
      t.rings = s.rings ∧ t.log.tells .referenceRestored .reference = true ∧ SwitchesCommit domain8 s t := by
  refine ⟨_, exec_referencePulse_of_quiet e owed frameOrder quiet, ?_⟩
  rw [pulseEvent_of_free e owed frameOrder free]
  have frame := frame_report (endingTicks true [] [] frameOrder (restored e s)) .referenceRestored .reference
  refine ⟨?_, (frame.rings rfl).trans (endingTicks_rings true frameOrder _), report_tells _ _ _, ?_⟩
  · have ru := (frame.ru rfl).trans ((endingTicks_ru _ _ _ _ _).trans (frameEnded_realigned _))
    exact congrArg (fun r : Reference => { r with sincePulse := 0 }) ru
  · have told : SameUses (endingTicks true [] [] frameOrder (restored e s)).tpt (report .referenceRestored .reference
        (endingTicks true [] [] frameOrder (restored e s))).tpt := .of_frame frame
    refine SwitchedAmong.switchesCommit_then
      ((endingTicks_switches true [] [] frameOrder (restored e s)).before (keepsCommit_restored e s)) (oneCommand_of_quiet quiet)
      ((keepsCommit_report _ _ _).trans (keepsCommit_pulseSeen _)) fun _ => told

theorem waitTimeoutEvent_of_due (due : s.ru.state = .locked ∧ 3 * nominalPeriod s.ru.format ≤ 2 * (s.ru.sinceFrame + e)) :
    waitTimeoutEvent e owed frameOrder s =
      endingTicks false (owedBy owed.lines (passTime e s)) owed.order frameOrder (passTime e s) := if_pos due

theorem waitTimeoutEvent_of_not (not : ¬(s.ru.state = .locked ∧ 3 * nominalPeriod s.ru.format ≤ 2 * (s.ru.sinceFrame + e))) :
    waitTimeoutEvent e owed frameOrder s = passTime e s := if_neg not

end

theorem turnFrame8_eq (realign : Bool) (s : State) : turnFrame8 realign s = (s.setRu { s.ru with
    frameCount := s.ru.frameCount + 1, format := s.ru.pendingFormat.getD s.ru.format, pendingFormat := none
    phase := if s.ru.pendingFormat ≠ none ∨ realign = true then 0 else (s.ru.phase + 1) % cadenceLength s.ru.format
    ticks := 0, sinceFrame := 0 }).setRound domain8 { s.cm.rounds.get domain8 with fresh := true } := by
  unfold turnFrame8 Reference.frameEnded
  cases s.ru.pendingFormat <;> cases realign <;> rfl

end Machine
end Sys2Proof
end

section
/-! PROOF. What a pulse, a time-out and the loss of the reference do, and the parts of an instant of domain 8. -/

namespace Sys2Proof
namespace Machine

/-- Settles O31: the frame ends are owedFrameEnd and pulse_in_free; the parts are as the model defines them. -/
theorem pulsesAndTimeOutsEndFrames : Obligations.PulsesAndTimeOutsEndFrames := by
  refine ⟨fun e owed frameOrder s awake => ⟨fun free => ?_, fun locked => ?_, ?_, ?_⟩, fun e owed frameOrder s quiet =>
    ⟨pulse_in_free e owed frameOrder quiet, fun locked early => ?_, fun locked due => ?_⟩, fun e owed frameOrder s quiet =>
    ⟨fun due => ?_, fun not => ?_, fun lost => ?_, fun not => ?_⟩, fun carried lines s => ?_, turnFrame8_eq,
    fun realign ticks order frameOrder s => ?_⟩
  · exact congrArg Host.Outcome.next ((event_of_awake _ _ awake).trans (congrArg finish (pulseEvent_of_free e owed frameOrder free)))
  · exact congrArg Host.Outcome.next ((event_of_awake _ _ awake).trans (congrArg finish (pulseEvent_of_locked e owed frameOrder locked)))
  · exact congrArg Host.Outcome.next (event_of_awake _ _ awake)
  · exact congrArg Host.Outcome.next (event_of_awake _ _ awake)
  · dsimp only
    rw [exec_referencePulse_of_quiet e owed frameOrder quiet, pulseEvent_of_locked e owed frameOrder locked,
      if_neg (Nat.not_le.2 early)]
    rfl
  · obtain ⟨ru, -, switched, written⟩ := owedFrameEnd quiet e owed frameOrder
    have event := (pulseEvent_of_locked e owed frameOrder locked).trans (congrArg pulseSeen (if_pos due))
    refine ⟨_, (exec_referencePulse_of_quiet e owed frameOrder quiet).trans (congrArg Host.Outcome.next event), ?_, switched, written⟩
    exact congrArg (fun r : Reference => { r with sincePulse := 0 }) (ru.trans (frameEnded_eq _))
  · obtain ⟨ru, switched, -, written⟩ := owedFrameEnd quiet e owed frameOrder
    have event := waitTimeoutEvent_of_due e owed frameOrder due
    exact ⟨_, (exec_referenceWaitTimeout_of_quiet e owed frameOrder quiet).trans (congrArg Host.Outcome.next event),
      ru.trans (frameEnded_eq _), switched, written⟩
  · rw [exec_referenceWaitTimeout_of_quiet e owed frameOrder quiet, waitTimeoutEvent_of_not e owed frameOrder not]
    rfl
  · exact (exec_referenceLost_of_quiet e quiet).trans (congrArg Host.Outcome.next (if_pos lost))
  · exact (exec_referenceLost_of_quiet e quiet).trans (congrArg Host.Outcome.next (if_neg not))
  · have ru : (emission domain8 s).ru = s.ru := (frame_emission_line s).ru rfl
    refine ⟨fun n => rfl, ?_, fun l => rfl, rfl, rfl, rfl, rfl, fun l => rfl⟩
    rw [← ru]
    rfl
  · exact ⟨schedule_perm _ _, before_append_with_perm ticks order frameOrder, fun p => mem_withFrameEnd, rfl, rfl,
      fun taken p rest carried u => rfl, fun taken carried u => rfl⟩

end Machine
end Sys2Proof
end

section
/-! PROOF. A set tick: the line inputs it presents, the sets it writes and the samples it emits (R11, R12, R49, R62, R133). -/

namespace Sys2Proof
namespace Machine

/-! ## The event case by case -/

section
variable (e : Time) (lines : LineSet) (order frameOrder : List Part) {s : State}

theorem setTickEvent_of_complete (locked : s.ru.state = .locked) (done : frameTicks s.ru ≤ s.ru.ticks) :
    setTickEvent e lines order frameOrder s = passTime e s := if_pos ⟨locked, done⟩

/-- A tick of a frame that lacks some (R11). -/
theorem setTickEvent_of_lacking (left : s.ru.ticks < frameTicks s.ru) : setTickEvent e lines order frameOrder s =
    if s.ru.state = .free ∧ frameTicks s.ru ≤ s.ru.ticks + 1 then endingTicks false [lines] order frameOrder (passTime e s)
    else runningTicks [lines] order frameOrder (passTime e s) := by
  have lacks : ¬frameTicks (passTime e s).ru ≤ (passTime e s).ru.ticks := Nat.not_le.2 left
  unfold setTickEvent
  dsimp only
  rw [if_neg fun done => lacks done.2, if_neg lacks]
  rfl

theorem setTickEvent_of_running (left : s.ru.ticks < frameTicks s.ru)
    (goesOn : s.ru.state = .locked ∨ s.ru.ticks + 1 < frameTicks s.ru) :
    setTickEvent e lines order frameOrder s = runningTicks [lines] order frameOrder (passTime e s) := by
  rw [setTickEvent_of_lacking e lines order frameOrder left]
  refine if_neg fun ⟨free, last⟩ => ?_
  rcases goesOn with locked | more
  · exact nomatch free.symm.trans locked
  · exact absurd more (Nat.not_lt.2 last)

theorem setTickEvent_of_last (free : s.ru.state = .free) (last : s.ru.ticks + 1 = frameTicks s.ru) :
    setTickEvent e lines order frameOrder s = endingTicks false [lines] order frameOrder (passTime e s) := by
  rw [setTickEvent_of_lacking e lines order frameOrder (by omega), if_pos ⟨free, last.ge⟩]

theorem one_lt_frameSets : ∀ fm : Format, ∀ k < cadenceLength fm, 1 < frameSets fm k := by decide

/-- The frame that follows a frame end carries more than one set (R41). -/
theorem one_lt_frameTicks_ended (r : Reference) : 1 < frameTicks (r.frameEnded false) := by
  rw [frameEnded_eq]
  refine one_lt_frameSets _ _ ?_
  cases r.pendingFormat with
  | none => exact Nat.mod_lt _ (cadenceLength_pos _)
  | some fm => exact cadenceLength_pos _

/-- A tick after the last of a frame in FREE ends the frame and is the first of the next (log entry 15). -/
theorem setTickEvent_of_free_complete (free : s.ru.state = .free) (done : frameTicks s.ru ≤ s.ru.ticks) :
    setTickEvent e lines order frameOrder s =
      runningTicks [lines] order frameOrder (endingTicks false [] [] frameOrder (passTime e s)) := by
  have notLocked : ¬((passTime e s).ru.state = .locked ∧ frameTicks (passTime e s).ru ≤ (passTime e s).ru.ticks) :=
    fun complete => nomatch free.symm.trans complete.1
  have over' : frameTicks (passTime e s).ru ≤ (passTime e s).ru.ticks := done
  have ended := endingTicks_ru [] [] frameOrder (passTime e s) false
  have more := one_lt_frameTicks_ended (passTime e s).ru
  have first : (endingTicks false [] [] frameOrder (passTime e s)).ru.ticks = 0 := by rw [ended]; rfl
  unfold setTickEvent
  dsimp only
  rw [if_neg notLocked, if_pos over']
  refine if_neg fun last => ?_
  have few := last.2
  rw [first, ended] at few
  omega

end

/-! ## What a tick writes -/

section
variable {lines : LineSet} {carried : Bool} {taken parts : List Part} {s : State}

/-- Where the line inputs presented are those of the one tick, the parts taken are all of that tick. -/
theorem takeParts_one (presented : s.lineIn = lines) :
    takeParts [lines] carried taken parts s = walk parts (instantPart carried lines) s := by
  induction parts generalizing taken s with
  | nil => rfl
  | cons p parts ih =>
    have same : [lines].getD (taken.count p) s.lineIn = lines := by
      rw [presented]
      cases taken.count p <;> rfl
    rw [takeParts_cons, walk_cons, same]
    exact ih (((instantPart_frame carried lines p s).lineIn (instantTouch_never p).2.2.1).trans presented)

theorem walk_instantPart_ring {n : LineQuad} (not : .lineWrite n ∉ parts) :
    (walk parts (instantPart carried lines) s).rings.get (lineRing n) = s.rings.get (lineRing n) :=
  walk_holds (P := fun u => u.rings.get (lineRing n) = s.rings.get (lineRing n)) parts (fun p mem u h =>
    (instantPart_rings lines p (fun m same write => not (by
      rw [← lineRing_injective same, ← write]
      exact mem)) u).trans h) s rfl

theorem Ring.head?_push (g : Ring) (x : SampleSet) : (g.push x).store.head? = some x := rfl

/-- A write among parts that hold no other write of its ring leaves its set newest (R49). -/
theorem walk_instantPart_head {n : LineQuad} (once : parts.count (.lineWrite n) = 1) :
    ((walk parts (instantPart carried lines) s).rings.get (lineRing n)).store.head? = some (lineQuadSet lines n) := by
  obtain ⟨pre, post, split, sides⟩ := exists_split (List.Perm.refl parts) once
  rw [split, walk_append, walk_cons, walk_instantPart_ring fun mem => (sides _ (Or.inr mem)).2 rfl, instantPart_lineWrite,
    writeEvent_rings, Table.get_set_same]
  exact Ring.head?_push _ _

end

/-- The line inputs are presented, each line ring has one more set, those line inputs with all flags set, and no feed ring has changed. -/
def Ticked (lines : LineSet) (s t : State) : Prop := t.lineIn = lines ∧
  (∀ n : LineQuad, (t.rings.get (lineRing n)).written = (s.rings.get (lineRing n)).written + 1 ∧
    (t.rings.get (lineRing n)).store.head? = some (lineQuadSet lines n)) ∧
  ∀ r : RingNo, r.val < 32 → t.rings.get r = s.rings.get r

section
variable (lines : LineSet) (order frameOrder : List Part) (s : State)

/-- The state at a tick with its line inputs presented. -/
def presenting (lines : LineSet) (s : State) : State := { s with lineIn := lines }

theorem runTicks_one : runTicks [lines] order frameOrder s =
    walk (beforeFrameEnd [lines] order frameOrder) (instantPart true lines) (presenting lines s) := takeParts_one rfl

theorem runTicks_lineIn : (runTicks [lines] order frameOrder s).lineIn = lines := takeParts_lineIn

theorem turnFrame8_lineIn (realign : Bool) (s : State) : (turnFrame8 realign s).lineIn = s.lineIn := rfl

theorem endingTicks_one (realign : Bool) : endingTicks realign [lines] order frameOrder s =
    walk (schedule frameOrder (frameParts ++ withFrameEnd [lines] order frameOrder))
      (instantPart (decide (0 < (runTicks [lines] order frameOrder s).ru.ticks)) lines)
      (turnFrame8 realign (runTicks [lines] order frameOrder s)) :=
  takeParts_one ((turnFrame8_lineIn _ _).trans (runTicks_lineIn lines order frameOrder s))

/-- The writes of one tick are made once each, before the frame end or with it. -/
theorem head_of_tick {n : LineQuad} {carried : Bool} {u : State} {rest : List Part}
    (rings : u.rings = (runTicks [lines] order frameOrder s).rings)
    (count : rest.count (.lineWrite n) = (withFrameEnd [lines] order frameOrder).count (.lineWrite n)) :
    ((walk rest (instantPart carried lines) u).rings.get (lineRing n)).store.head? = some (lineQuadSet lines n) := by
  have all := count_lineWrite [lines] order frameOrder n
  rw [List.length_singleton] at all
  by_cases held : .lineWrite n ∈ rest
  · have once : rest.count (.lineWrite n) = 1 := by
      have := List.count_pos_iff.2 held
      omega
    exact walk_instantPart_head once
  · have once : (beforeFrameEnd [lines] order frameOrder).count (.lineWrite n) = 1 := by
      have := List.count_eq_zero.2 held
      omega
    rw [walk_instantPart_ring held, rings, runTicks_one]
    exact walk_instantPart_head once

theorem runTicks_feedRings {r : RingNo} (feed : r.val < 32) :
    (runTicks [lines] order frameOrder s).rings.get r = s.rings.get r := takeParts_feedRings feed

theorem ticked_runningTicks : Ticked lines s (runningTicks [lines] order frameOrder s) := by
  refine ⟨takeParts_lineIn.trans (runTicks_lineIn lines order frameOrder s), fun n =>
    ⟨runningTicks_written [lines] order frameOrder s n, ?_⟩, fun r feed =>
    (takeParts_feedRings feed).trans (runTicks_feedRings lines order frameOrder s feed)⟩
  unfold runningTicks
  rw [takeParts_one (runTicks_lineIn lines order frameOrder s)]
  exact head_of_tick lines order frameOrder s rfl ((schedule_perm _ _).count_eq _)

theorem ticked_endingTicks (realign : Bool) : Ticked lines s (endingTicks realign [lines] order frameOrder s) := by
  have each : ∀ n : LineQuad, frameParts.count (.lineWrite n) = 0 := by decide
  refine ⟨takeParts_lineIn.trans (runTicks_lineIn lines order frameOrder s), fun n =>
    ⟨endingTicks_written [lines] order frameOrder s realign n, ?_⟩, fun r feed =>
    (takeParts_feedRings feed).trans (runTicks_feedRings lines order frameOrder s feed)⟩
  rw [endingTicks_one]
  refine head_of_tick lines order frameOrder s rfl ?_
  rw [count_frameEnd, each n, Nat.zero_add]

end

end Machine
end Sys2Proof
end

section
/-! PROOF. What a tick emits on the line outputs, and what a set tick does (R49, R58, R62, R102, R133). -/

namespace Sys2Proof
namespace Machine

/-! ## The mix at a tick -/

section
variable {s t : State}

theorem SameMix.of_frame {touch : Touch} (k : Frame touch s t) (rings : touch.rings = false := by rfl)
    (tpt : touch.tpt = false := by rfl) (active : touch.active = false := by rfl) (ramps : touch.ramps = false := by rfl) :
    SameMix s t := ⟨k.rings rings, k.tpt tpt, k.active active, k.ramps ramps⟩

theorem SameMix.writeLineRing (h : SameMix s t) (lines : LineSet) (n : LineQuad) :
    SameMix (writeLineRing lines n s) (writeLineRing lines n t) where
  rings := by
    unfold Machine.writeLineRing
    rw [writeEvent_rings, writeEvent_rings, h.rings]
  tpt := Table.ext_get fun i => by
    unfold Machine.writeLineRing
    rw [writeEvent_get, writeEvent_get, h.rings, h.tpt]
  active := ((frame_writeLineRing t lines n).active rfl).trans (h.active.trans ((frame_writeLineRing s lines n).active rfl).symm)
  ramps := ((frame_writeLineRing t lines n).ramps rfl).trans (h.ramps.trans ((frame_writeLineRing s lines n).ramps rfl).symm)

theorem SameMix.walk_writeLineRing (h : SameMix s t) (lines : LineSet) (l : List LineQuad) :
    SameMix (walk l (Machine.writeLineRing lines) s) (walk l (Machine.writeLineRing lines) t) := by
  induction l generalizing s t with
  | nil => exact h
  | cons n l ih =>
    rw [walk_cons, walk_cons]
    exact ih (h.writeLineRing lines n)

theorem SameMix.underruns (h : SameMix s t) (d : Domain) : SameMix (underruns d s) (underruns d t) where
  rings := ((frame_underruns t d).rings rfl).trans (h.rings.trans ((frame_underruns s d).rings rfl).symm)
  tpt := Table.ext_get fun i => by rw [underruns_get, underruns_get, h.rings, h.tpt]
  active := ((frame_underruns t d).active rfl).trans (h.active.trans ((frame_underruns s d).active rfl).symm)
  ramps := ((frame_underruns t d).ramps rfl).trans (h.ramps.trans ((frame_underruns s d).ramps rfl).symm)

end

/-! ## The line outputs of a tick -/

/-- The line outputs that the emission of a tick brings, taken after its writes. -/
def tickOutputs (lines : LineSet) (s : State) : Table 16 Sample :=
  Table.tab 16 fun l => BitVec.ofInt 24 (mixValue
    (underruns domain8 (walk (List.finRange 4) (writeLineRing lines) s)) (domainDest domain8 l))

section
variable {lines : LineSet} {carried : Bool} {parts : List Part} {s : State}

theorem emission_lineOut (s : State) (l : Fin 16) :
    (emission domain8 s).lineOut.get l = BitVec.ofInt 24 (mixValue (underruns domain8 s) (domainDest domain8 l)) := by
  rw [(emission_line s).2, toSamples_emittedValues, Table.get_tab, if_pos (carriedIn_line _ l)]

theorem walk_instantPart_lineOut (notEmission : .emission ∉ parts) :
    (walk parts (instantPart carried lines) s).lineOut = s.lineOut :=
  walk_holds (P := fun u => u.lineOut = s.lineOut) parts (fun p mem u h =>
    ((instantPart_frame carried lines p u).lineOut (instantTouch_ru fun same => notEmission (same ▸ mem)).2.1).trans h) s rfl

theorem walk_lineWrites (l : List LineQuad) (s : State) :
    walk (l.map .lineWrite) (instantPart carried lines) s = walk l (writeLineRing lines) s := by
  unfold walk
  rw [List.foldl_map]
  rfl

/-- The parts of one tick in their standing order: the writes before the emission (R69; log entry 3). -/
theorem walk_tickParts_lineOut (l : Fin 16) :
    (walk tickParts (instantPart carried lines) s).lineOut.get l = (tickOutputs lines s).get l := by
  have none : Part.emission ∉ (List.finRange 16).map Part.lineOffer := by decide
  have emits (u : State) : (instantPart carried lines .emission u).lineOut = (emission domain8 u).lineOut := rfl
  unfold tickParts tickOutputs
  rw [walk_append, walk_append, walk_instantPart_lineOut none, walk_lineWrites, walk_cons, walk_nil, emits, emission_lineOut,
    Table.get_tab]

theorem tickOutputs_congr {t : State} (h : SameMix s t) (lines : LineSet) : tickOutputs lines t = tickOutputs lines s :=
  Table.ext_get fun l => by
    unfold tickOutputs
    rw [Table.get_tab, Table.get_tab, mixValue_congr ((h.walk_writeLineRing lines _).underruns _)]

theorem beforeFrameEnd_standing (ticks : List LineSet) : beforeFrameEnd ticks [] [] = ticks.flatMap fun _ => tickParts := List.diff_nil _

theorem withFrameEnd_standing (ticks : List LineSet) : withFrameEnd ticks [] [] = [] := by
  have all := (before_append_with_perm ticks [] []).length_eq
  rw [beforeFrameEnd_standing, List.length_append] at all
  exact List.length_eq_zero_iff.1 (by omega)

theorem runTicks_lineOut (lines : LineSet) (s : State) (l : Fin 16) :
    (runTicks [lines] [] [] s).lineOut.get l = (tickOutputs lines s).get l := by
  have one : ([lines].flatMap fun _ => tickParts) = tickParts := List.append_nil _
  rw [runTicks_one, beforeFrameEnd_standing, one, walk_tickParts_lineOut,
    tickOutputs_congr (.of_frame (frame_setLineIn s lines) : SameMix s (presenting lines s))]

theorem runningTicks_lineOut (lines : LineSet) (s : State) (l : Fin 16) :
    (runningTicks [lines] [] [] s).lineOut.get l = (tickOutputs lines s).get l := by
  unfold runningTicks
  rw [withFrameEnd_standing]
  exact runTicks_lineOut lines s l

theorem turnFrame8_lineOut (realign : Bool) (s : State) : (turnFrame8 realign s).lineOut = s.lineOut := rfl

theorem endingTicks_lineOut (realign : Bool) (lines : LineSet) (s : State) (l : Fin 16) :
    (endingTicks realign [lines] [] [] s).lineOut.get l = (tickOutputs lines s).get l := by
  have none : Part.emission ∉ frameParts := by decide
  rw [endingTicks_one, withFrameEnd_standing, List.append_nil, schedule, walk_instantPart_lineOut none, turnFrame8_lineOut,
    runTicks_lineOut]

end

/-! ## The obligation -/

section
variable {s : State} (e : Time) (lines : LineSet) (order frameOrder : List Part)

theorem exec_setTick_of_quiet (quiet : s.quiet = true) :
    exec (.setTick e lines order frameOrder) s = .next (setTickEvent e lines order frameOrder s) :=
  congrArg Host.Outcome.next (event_of_quiet (noneWaits_setTickEvent e lines order frameOrder) quiet)

theorem exec_setTick_of_awake (awake : s.awake = true) :
    exec (.setTick e lines order frameOrder) s = .next (finish (setTickEvent e lines order frameOrder s)) :=
  congrArg Host.Outcome.next (event_of_awake (setTickEvent e lines order frameOrder) s awake)

theorem tickOutputs_passTime (s : State) : tickOutputs lines (passTime e s) = tickOutputs lines s :=
  tickOutputs_congr (.of_frame (frame_passTime s e)) lines

/-- A tick of a frame that lacks some, whether it completes the frame or not. -/
theorem setTick_lacking (s : State) (left : s.ru.ticks < frameTicks s.ru) : let t := setTickEvent e lines order frameOrder s
    Ticked lines s t ∧ (order = [] → frameOrder = [] → ∀ l, t.lineOut.get l = (tickOutputs lines s).get l) := by
  dsimp only
  rw [setTickEvent_of_lacking e lines order frameOrder left, ← tickOutputs_passTime e lines s]
  split
  · refine ⟨ticked_endingTicks lines order frameOrder (passTime e s) false, fun standing frameStanding => ?_⟩
    rw [standing, frameStanding]
    exact endingTicks_lineOut false lines (passTime e s)
  · refine ⟨ticked_runningTicks lines order frameOrder (passTime e s), fun standing frameStanding => ?_⟩
    rw [standing, frameStanding]
    exact runningTicks_lineOut lines (passTime e s)

/-- A tick of the next frame: the writes come after the frame end. -/
theorem ticked_after_frameEnd (s : State) :
    Ticked lines s (runningTicks [lines] order frameOrder (endingTicks false [] [] frameOrder (passTime e s))) := by
  obtain ⟨presented, written, feeds⟩ := ticked_runningTicks lines order frameOrder (endingTicks false [] [] frameOrder (passTime e s))
  rw [endingTicks_rings] at written feeds
  exact ⟨presented, written, feeds⟩

end

/-- Settles O30: a tick goes on in the frame, completes it, or follows its end (setTickEvent_of_…). -/
theorem setTickWritesLineRings : Obligations.SetTickWritesLineRings := by
  refine ⟨fun e lines order frameOrder s awake => ?_, fun e lines order frameOrder s quiet => ?_⟩
  · dsimp only
    rw [exec_setTick_of_awake e lines order frameOrder awake]
    refine ⟨fun locked done => ?_, fun left goesOn => ?_, fun free last => ?_, fun free done => ?_⟩
    · rw [setTickEvent_of_complete e lines order frameOrder locked done]
      rfl
    · rw [setTickEvent_of_running e lines order frameOrder left goesOn]
      rfl
    · rw [setTickEvent_of_last e lines order frameOrder free last]
      rfl
    · rw [setTickEvent_of_free_complete e lines order frameOrder free done]
      rfl
  · have one := oneCommand_of_quiet quiet
    have passed := keepsCommit_passTime e s
    dsimp only
    rw [exec_setTick_of_quiet e lines order frameOrder quiet]
    refine ⟨fun locked done => ?_, fun left => ⟨_, rfl, ?_⟩, fun free done => ⟨_, rfl, ?_⟩⟩
    · rw [setTickEvent_of_complete e lines order frameOrder locked done]
      rfl
    · obtain ⟨ticked, outputs⟩ := setTick_lacking e lines order frameOrder s left
      refine ⟨ticked, fun standing frameStanding l => ?_, fun free last => ?_, fun goesOn => ?_⟩
      · exact (outputs standing frameStanding l).trans (Table.get_tab _ _)
      · rw [setTickEvent_of_last e lines order frameOrder free last]
        exact ⟨(endingTicks_ru _ _ _ _ _).trans (frameEnded_eq _), ((endingTicks_switches _ _ _ _ _).before passed).switchesCommit one⟩
      · rw [setTickEvent_of_running e lines order frameOrder left goesOn]
        exact runningTicks_ru _ _ _ _
    · rw [setTickEvent_of_free_complete e lines order frameOrder free done]
      refine ⟨ticked_after_frameEnd e lines order frameOrder s, ?_, ?_⟩
      · rw [runningTicks_ru, endingTicks_ru, frameEnded_eq]
        rfl
      · exact ((endingTicks_switches _ _ _ _ _).before passed).switchesCommit_then one (runningTicks_keepsCommit _ _ _ _)
          fun settled => runningTicks_sameUses settled lines order frameOrder

end Machine
end Sys2Proof
end

section
/-! PROOF. What the boundary of a feed leaves of the other feeds (R8, R15, R102). -/

namespace Sys2Proof
namespace Machine

/-! ## The feeds beside one -/

/-- From s to t the FRs, rings and watched tracks of the feeds other than f stay, and so do the RU and the line port. -/
structure OnlyFeed (f : Feed) (s t : State) : Prop where
  fr : ∀ g, g ≠ f → t.fr.get g = s.fr.get g
  rings : ∀ r : RingNo, r.val / 4 ≠ f.val → t.rings.get r = s.rings.get r
  tracks : ∀ w : TrackNo, w.val / 16 ≠ f.val → t.watch.tracks.get w = s.watch.tracks.get w
  ru : t.ru = s.ru
  lineIn : t.lineIn = s.lineIn
  lineOut : t.lineOut = s.lineOut

section
variable {f : Feed} {s t u : State}

theorem OnlyFeed.refl (f : Feed) (s : State) : OnlyFeed f s s := ⟨fun _ _ => rfl, fun _ _ => rfl, fun _ _ => rfl, rfl, rfl, rfl⟩

theorem OnlyFeed.trans (h : OnlyFeed f s t) (k : OnlyFeed f t u) : OnlyFeed f s u where
  fr g other := (k.fr g other).trans (h.fr g other)
  rings r other := (k.rings r other).trans (h.rings r other)
  tracks w other := (k.tracks w other).trans (h.tracks w other)
  ru := k.ru.trans h.ru
  lineIn := k.lineIn.trans h.lineIn
  lineOut := k.lineOut.trans h.lineOut

theorem OnlyFeed.of_frame {touch : Touch} (k : Frame touch s t) (fr : touch.fr = false := by rfl) (rings : touch.rings = false := by rfl)
    (watch : touch.watch = false := by rfl) (ru : touch.ru = false := by rfl) (lineIn : touch.lineIn = false := by rfl)
    (lineOut : touch.lineOut = false := by rfl) : OnlyFeed f s t :=
  ⟨fun _ _ => by rw [k.fr fr], fun _ _ => by rw [k.rings rings], fun _ _ => by rw [k.watch watch], k.ru ru, k.lineIn lineIn,
    k.lineOut lineOut⟩

theorem OnlyFeed.walk {α : Type} {g : α → State → State} (keep : ∀ a s, OnlyFeed f s (g a s)) (l : List α) (s : State) :
    OnlyFeed f s (walk l g s) :=
  walk_holds (P := OnlyFeed f s) l (fun a _ _ h => h.trans (keep a _)) s (OnlyFeed.refl f s)

theorem onlyFeed_setFr (r : Receiver) (s : State) : OnlyFeed f s (s.setFr f r) :=
  { OnlyFeed.refl f s with fr := fun _ other => (setFr_get _ _ _ _).trans (if_neg (Ne.symm other)) }

theorem onlyFeed_setTracks {tracks : Table 144 WatchedTrack}
    (others : ∀ w : TrackNo, w.val / 16 ≠ f.val → tracks.get w = s.watch.tracks.get w) : OnlyFeed f s (s.setTracks tracks) :=
  { OnlyFeed.refl f s with tracks := others }

theorem onlyFeed_setTrack {w : TrackNo} (on : w.val / 16 = f.val) (t : WatchedTrack) (s : State) :
    OnlyFeed f s (s.setTracks (s.watch.tracks.set w t)) :=
  onlyFeed_setTracks fun _ off => Table.get_set_other _ _ _ _ fun same => off (same ▸ on)

theorem feedRing_feed (f : Feed) (q : Quad) : (feedRing f q).val / 4 = f.val := by
  simp only [feedRing]
  omega

theorem trackRing_other {w : TrackNo} (off : w.val / 16 ≠ f.val) (q : Quad) : trackRing w ≠ feedRing f q := fun same =>
  off ((trackRing_feed f w).1 ((congrArg (fun r : RingNo => r.val / 4) same).trans (feedRing_feed f q)))

theorem resetRingTracks_other {w : TrackNo} (off : w.val / 16 ≠ f.val) (q : Quad) (t : Table 144 WatchedTrack) :
    (resetRingTracks (feedRing f q) t).get w = t.get w :=
  (Table.get_tab _ _).trans (if_neg (trackRing_other off q))

theorem onlyFeed_setRing (q : Quad) (g : Ring) (s : State) : OnlyFeed f s (s.setRing (feedRing f q) g) :=
  { OnlyFeed.refl f s with
    rings := fun _ off => Table.get_set_other _ _ _ _ fun same => off (same ▸ feedRing_feed f q) }

theorem onlyFeed_resetRing (q : Quad) (s : State) : OnlyFeed f s (resetRing (feedRing f q) s) := by
  have starts : OnlyFeed f s (s.setRing (feedRing f q) Ring.empty) := onlyFeed_setRing q Ring.empty s
  have moved := starts.trans (.of_frame (frame_setTpt _ (s.tpt.map fun tp => tp.movedOn (feedRing f q) .filling)))
  exact moved.trans (onlyFeed_setTracks fun w off => resetRingTracks_other off q _)

theorem onlyFeed_enterLocked (s : State) : OnlyFeed f s (enterLocked f s) :=
  (onlyFeed_setFr _ s).trans (.walk (fun q u => onlyFeed_resetRing q u) _ _)

theorem onlyFeed_leaveLocked (s : State) : OnlyFeed f s (leaveLocked f s) where
  fr g other := (leaveLocked_fr f g s).trans (if_neg (Ne.symm other))
  rings _ _ := by rw [(frame_leaveLocked s f).rings rfl]
  tracks w off := (leaveLocked_tracks f s w).trans (if_neg off)
  ru := (frame_leaveLocked s f).ru rfl
  lineIn := (frame_leaveLocked s f).lineIn rfl
  lineOut := (frame_leaveLocked s f).lineOut rfl

theorem onlyFeed_quadAbsent (q : Quad) (s : State) : OnlyFeed f s (quadAbsent f q s) :=
  (OnlyFeed.of_frame (frame_starveRing s (feedRing f q))).trans
    ((onlyFeed_setTracks fun w off => resetRingTracks_other off q _).trans (onlyFeed_setFr _ _))

theorem onlyFeed_closeQuadFrame (q : Quad) (s : State) : OnlyFeed f s (closeQuadFrame f q s) := by
  rw [closeQuadFrame_eq]
  exact keeps_ite ((onlyFeed_setFr _ s).trans (onlyFeed_quadAbsent q _)) (onlyFeed_setFr _ s)

theorem feedTrack_feed (f : Feed) (t : Fin 16) : (feedTrack f t).val / 16 = f.val := by
  simp only [feedTrack]
  omega

theorem onlyFeed_judgeTrack {w : TrackNo} (on : w.val / 16 = f.val) (s : State) : OnlyFeed f s (judgeTrack w s) :=
  keeps_ite ((onlyFeed_setTrack on _ s).trans (.of_frame (frame_report _ _ _))) (onlyFeed_setTrack on _ s)

theorem onlyFeed_judgeFeedTrack (t : Fin 16) (s : State) : OnlyFeed f s (judgeFeedTrack f t s) :=
  keeps_ite (onlyFeed_judgeTrack (feedTrack_feed f t) s) (onlyFeed_setTrack (feedTrack_feed f t) _ s)

theorem onlyFeed_judgeCadence (fm : Format) (q : Quad) (s : State) : OnlyFeed f s (judgeCadence f fm q s) :=
  keeps_ite ((onlyFeed_setFr _ s).trans (.of_frame (frame_report _ _ _))) (onlyFeed_setFr _ s)

theorem onlyFeed_settleStep (s : State) : OnlyFeed f s (settleStep f s) :=
  keeps_ite ((onlyFeed_setFr _ s).trans (onlyFeed_enterLocked _)) (onlyFeed_setFr _ s)

theorem boundaryPart_onlyFeed (fm : Format) (p : Part) (s : State) : OnlyFeed f s (boundaryPart f fm p s) := by
  cases p with
  | takePoints => exact .of_frame (frame_judgeTakePoints s _)
  | switch => exact .of_frame (frame_switchAt s _ _)
  | clips => exact .of_frame (frame_handOverClips s _)
  | presence t => exact onlyFeed_judgeFeedTrack t s
  | absence q => exact onlyFeed_closeQuadFrame q s
  | cadence q => exact onlyFeed_judgeCadence fm q s
  | dueCount => exact .of_frame (frame_countDue s f)
  | pathCheck => exact .of_frame (frame_pathCheckBoundary s f)
  | settle => exact onlyFeed_settleStep s
  | leaveLocked => exact onlyFeed_leaveLocked s
  | stop => exact .of_frame (frame_stopDomain s f)
  | silence | emission | lineWrite | lineOffer => exact OnlyFeed.refl f s

end

/-! ## The marks and the patch -/

section
variable {d : Domain} {ring : RingNo → Prop} {f : Feed} {s t : State}

/-- What changes records alone keeps the patch, where it keeps the records of other domains on other rings. -/
theorem KeepsPatch.of_tpt {touch : Touch} (k : Frame touch s t)
    (records : ∀ i, (s.tpt.get i).domain ≠ d → ¬ring (s.tpt.get i).ring → t.tpt.get i = s.tpt.get i)
    (ce : touch.ce = false := by rfl) (active : touch.active = false := by rfl) (fmt : touch.fmt = false := by rfl)
    (ramps : touch.ramps = false := by rfl) : KeepsPatch d ring s t :=
  ⟨k.ce ce, k.active active, fun _ _ => by rw [k.fmt fmt], fun _ _ => by rw [k.ramps ramps], records⟩

theorem keepsPatch_judgeTakePoints (s : State) : KeepsPatch d ring s (judgeTakePoints d s) :=
  .of_tpt (frame_judgeTakePoints s d) fun i off _ => (judgeTakePoints_get d i s).trans (if_neg off)

theorem keepsMarks_handOverClips (d : Domain) (s : State) : KeepsMarks d s (handOverClips d s) where
  clips x off := (handOverClips_get d s x).trans (if_neg off)
  rounds e _ := by rw [(frame_handOverClips s d).cm rfl]

theorem keepsMarks_freshRound (d : Domain) (s : State) : KeepsMarks d s (freshRound d s) where
  clips _ _ := rfl
  rounds _ off := setRound_rounds_other off s _

theorem keepsMarks_stopDomain (f : Feed) (s : State) : KeepsMarks (feedDomain f) s (stopDomain f s) where
  clips x off := by rw [stopDomain_clips, halted_clips, if_neg off]
  rounds e off := by rw [stopDomain_cm, halted_rounds, if_neg off]

theorem keepsPatch_setFmt (f : Feed) (o : Formatter) (s : State) : KeepsPatch (feedDomain f) ring s (s.setFmt f o) :=
  ⟨rfl, rfl, fun _ off => fmt_other_of_set rfl off, fun _ _ => rfl, fun _ _ _ => rfl⟩

theorem halted_get_other {i : RecordNo} (off : (s.tpt.get i).domain ≠ feedDomain f) :
    (halted f s).tpt.get i = s.tpt.get i := by
  have unnamed := named_of_other off fun p => releasedIn_domain (next := fun _ => none) (s := s)
  rw [halted_tpt, freeUnused_get, dropAll_get, unnamed]
  exact if_neg off

theorem keepsPatch_halted (f : Feed) (s : State) : KeepsPatch (feedDomain f) ring s (halted f s) :=
  ⟨(frame_halted f s).ce rfl, (frame_halted f s).active rfl, fun _ off => fmt_other_of_set (halted_fmt f s) off,
    fun _ off => (halted_ramps f _ s).trans (if_neg off), fun _ off _ => halted_get_other off⟩

/-- A stop with no commit in flight keeps to its domain (R15). -/
theorem keepsPatch_stopDomain (noFlight : s.ce.inFlight = none) : KeepsPatch (feedDomain f) ring s (stopDomain f s) := by
  rw [stopDomain_eq, switchAt_of_idle (by rw [(frame_halted f s).ce rfl, noFlight])]
  exact (keepsPatch_halted f s).trans (.of_frame (frame_pathCheckStop _ f) _ _)

theorem keepsPatch_enterLocked (f : Feed) (s : State) : KeepsPatch (feedDomain f) (fun r => r.val / 4 = f.val) s (enterLocked f s) :=
  .of_tpt (frame_enterLocked s f) fun i _ off => (enterLocked_tpt f s i).trans (if_neg fun on => off on.1)

theorem keepsPatch_closeQuadFrame (f : Feed) (q : Quad) (s : State) :
    KeepsPatch (feedDomain f) (fun r => r.val / 4 = f.val) s (closeQuadFrame f q s) := by
  have absent (u : State) : KeepsPatch (feedDomain f) (fun r => r.val / 4 = f.val) u (quadAbsent f q u) :=
    .of_tpt (frame_quadAbsent u f q) fun i _ off => (quadAbsent_tpt f q u i).trans (if_neg fun ⟨ring, _⟩ =>
      off (by rw [ring]; exact feedRing_feed f q))
  rw [closeQuadFrame_eq]
  exact keeps_ite ((KeepsPatch.of_frame (frame_setFr s f _) _ _).trans (absent _)) (.of_frame (frame_setFr s f _) _ _)

theorem keepsPatch_settleStep (f : Feed) (s : State) : KeepsPatch (feedDomain f) (fun r => r.val / 4 = f.val) s (settleStep f s) :=
  keeps_ite ((KeepsPatch.of_frame (frame_setFr s f _) _ _).trans (keepsPatch_enterLocked f _)) (.of_frame (frame_setFr s f _) _ _)

theorem partTouch_cm {p : Part} (notStop : p ≠ .stop) : (partTouch p).cm = false := by
  cases p with
  | stop => exact absurd rfl notStop
  | _ => rfl

theorem boundaryPart_keepsMarks (fm : Format) (p : Part) (s : State) : KeepsMarks (feedDomain f) s (boundaryPart f fm p s) := by
  by_cases clips : p = .clips
  · subst clips
    exact keepsMarks_handOverClips _ s
  by_cases stop : p = .stop
  · subst stop
    exact keepsMarks_stopDomain f s
  · exact .of_frame (boundaryPart_frame f fm p s) _ (partTouch_clips clips stop) (partTouch_cm stop)

theorem boundaryPart_keepsPatch (fm : Format) (p : Part) (noFlight : s.ce.inFlight = none) :
    KeepsPatch (feedDomain f) (fun r => r.val / 4 = f.val) s (boundaryPart f fm p s) := by
  cases p with
  | takePoints => exact keepsPatch_judgeTakePoints s
  | switch =>
    have same : boundaryPart f fm .switch s = s := switchAt_of_idle noFlight
    rw [same]
    exact KeepsPatch.refl _ _ s
  | clips => exact .of_frame (frame_handOverClips s _) _ _
  | presence t => exact .of_frame (frame_judgeFeedTrack s f t) _ _
  | absence q => exact keepsPatch_closeQuadFrame f q s
  | cadence q => exact .of_frame (frame_judgeCadence s f fm q) _ _
  | dueCount => exact .of_frame (frame_countDue s f) _ _
  | pathCheck => exact .of_frame (frame_pathCheckBoundary s f) _ _
  | settle => exact keepsPatch_settleStep f s
  | leaveLocked => exact .of_tpt (frame_leaveLocked s f) fun i _ off => (leaveLocked_tpt f s i).trans (if_neg fun on => off on.1)
  | stop => exact keepsPatch_stopDomain noFlight
  | silence | emission | lineWrite | lineOffer => exact KeepsPatch.refl _ _ s

end

/-! ## The boundary -/

section
variable {f : Feed} {s t u : State}

theorem keepsOtherFeeds_of (only : OnlyFeed f s t) (marks : KeepsMarks (feedDomain f) s t)
    (patch : s.ce.inFlight = none → KeepsPatch (feedDomain f) (fun r => r.val / 4 = f.val) s t) : KeepsOtherFeeds f s t :=
  ⟨only.fr, only.rings, only.tracks, marks.clips, marks.rounds, only.ru, only.lineIn, only.lineOut, patch⟩

theorem KeepsOtherFeeds.refl (f : Feed) (s : State) : KeepsOtherFeeds f s s :=
  keepsOtherFeeds_of (OnlyFeed.refl f s) (KeepsMarks.refl _ s) fun _ => KeepsPatch.refl _ _ s

theorem KeepsOtherFeeds.trans (h : KeepsOtherFeeds f s t) (k : KeepsOtherFeeds f t u) : KeepsOtherFeeds f s u := by
  obtain ⟨fr, rings, tracks, clips, rounds, ru, lineIn, lineOut, patch⟩ := h
  obtain ⟨fr', rings', tracks', clips', rounds', ru', lineIn', lineOut', patch'⟩ := k
  have only := OnlyFeed.trans (f := f) ⟨fr, rings, tracks, ru, lineIn, lineOut⟩ ⟨fr', rings', tracks', ru', lineIn', lineOut'⟩
  have marks := KeepsMarks.trans (d := feedDomain f) ⟨clips, rounds⟩ ⟨clips', rounds'⟩
  refine keepsOtherFeeds_of only marks fun noFlight => ?_
  have before := patch noFlight
  exact before.trans (patch' (by rw [before.1, noFlight]))

theorem boundaryPart_keepsOtherFeeds (fm : Format) (p : Part) (s : State) : KeepsOtherFeeds f s (boundaryPart f fm p s) :=
  keepsOtherFeeds_of (boundaryPart_onlyFeed fm p s) (boundaryPart_keepsMarks fm p s) (boundaryPart_keepsPatch fm p)

theorem runParts_keepsOtherFeeds (fm : Format) (order parts : List Part) (s : State) :
    KeepsOtherFeeds f s (runParts f fm order parts s) :=
  walk_holds (P := KeepsOtherFeeds f s) _ (fun p _ _ h => h.trans (boundaryPart_keepsOtherFeeds fm p _)) s (KeepsOtherFeeds.refl f s)

theorem keepsOtherFeeds_setFr (r : Receiver) (s : State) : KeepsOtherFeeds f s (s.setFr f r) :=
  keepsOtherFeeds_of (onlyFeed_setFr r s) (.of_frame (frame_setFr s f r) _) fun _ => .of_frame (frame_setFr s f r) _ _

theorem keepsOtherFeeds_report (reason : Reason) (src : FaultSource) (s : State) : KeepsOtherFeeds f s (report reason src s) :=
  keepsOtherFeeds_of (.of_frame (frame_report s reason src)) (.of_frame (frame_report s reason src) _) fun _ =>
    .of_frame (frame_report s reason src) _ _

theorem keepsOtherFeeds_enterLocked (s : State) : KeepsOtherFeeds f s (enterLocked f s) :=
  keepsOtherFeeds_of (onlyFeed_enterLocked s) (.of_frame (frame_enterLocked s f) _) fun _ => keepsPatch_enterLocked f s

theorem keepsOtherFeeds_startDomain (s : State) : KeepsOtherFeeds f s (startDomain f s) :=
  keepsOtherFeeds_of (.of_frame (frame_startDomain s f)) (((KeepsMarks.of_frame (frame_setFmt s f _) _).trans
    (.of_frame (frame_startTakePoints _ _) _)).trans (keepsMarks_freshRound _ _)) fun _ =>
    ⟨rfl, rfl, fun _ off => fmt_other_of_set (startDomain_fmt f s) off, fun _ _ => rfl,
      fun i off _ => (startDomain_tpt f s i).trans (if_neg fun on => off on.1)⟩

theorem keepsOtherFeeds_openFrame (fm : Format) (s : State) : KeepsOtherFeeds f s (openFrame f fm s) :=
  keepsOtherFeeds_of (.of_frame (frame_openFrame s f fm)) ((KeepsMarks.of_frame (frame_setFmt s f _) _).trans (keepsMarks_freshRound _ _))
    fun _ => (keepsPatch_setFmt f _ s).trans (.of_frame (frame_freshRound _ _) _ _)

theorem keepsOtherFeeds_identify (fm : Format) (s : State) : KeepsOtherFeeds f s (identify f fm s) := by
  have started (r : Receiver) : KeepsOtherFeeds f s (startDomain f (s.setFr f r)) :=
    (keepsOtherFeeds_setFr r s).trans (keepsOtherFeeds_startDomain _)
  exact keeps_ite (keeps_ite ((started _).trans (keepsOtherFeeds_enterLocked _)) (started _))
    ((started _).trans (keepsOtherFeeds_report _ _ _))

theorem keepsOtherFeeds_seekBoundary (m : Option Format) (s : State) : KeepsOtherFeeds f s (seekBoundary f m s) := by
  cases m with
  | none => exact keepsOtherFeeds_setFr _ s
  | some fm => exact keeps_ite (keepsOtherFeeds_identify fm s) (keepsOtherFeeds_setFr _ s)

theorem keepsOtherFeeds_loseLock (fm : Format) (c : Option Format) (order extra : List Part) (s : State) :
    KeepsOtherFeeds f s (loseLock f fm c order extra s) :=
  ((keepsOtherFeeds_setFr _ s).trans (keepsOtherFeeds_report _ _ _)).trans (runParts_keepsOtherFeeds fm order _ _)

theorem keepsOtherFeeds_closeFrame (m : Option Format) (order : List Part) (s : State) :
    KeepsOtherFeeds f s (closeFrame f m order s) := by
  have counted (u : State) : KeepsOtherFeeds f u (countDue f u) := boundaryPart_keepsOtherFeeds 0 .dueCount u
  refine keeps_ite (P := KeepsOtherFeeds f s) ?_ ((keepsOtherFeeds_seekBoundary m s).trans (counted _))
  cases (s.fr.get f).detected with
  | none => exact KeepsOtherFeeds.refl f s
  | some fm =>
    exact keeps_ite ((keepsOtherFeeds_openFrame fm s).trans (runParts_keepsOtherFeeds fm order _ _))
      (keepsOtherFeeds_loseLock fm m order _ s)

theorem keepsOtherFeeds_frameMark (period : Time) (order : List Part) (s : State) :
    KeepsOtherFeeds f s (frameMark f period order s) :=
  keeps_ite (KeepsOtherFeeds.refl f s)
    (keeps_ite ((keepsOtherFeeds_setFr _ s).trans (keepsOtherFeeds_closeFrame _ order _)) (keepsOtherFeeds_setFr _ s))

theorem keepsOtherFeeds_lineGap (order : List Part) (s : State) : KeepsOtherFeeds f s (lineGap f order s) := by
  refine keeps_ite (P := KeepsOtherFeeds f s) ?_ (KeepsOtherFeeds.refl f s)
  cases (s.fr.get f).detected with
  | none => exact KeepsOtherFeeds.refl f s
  | some fm => exact keepsOtherFeeds_loseLock fm none order [] s

end

end Machine
end Sys2Proof
end

section
/-! PROOF. What a line of a feed leaves of the others, where it is not the control feed's (R15, R20, R27, R33, R43). -/

namespace Sys2Proof
namespace Machine

/-! ## Sound packets -/

section
variable {f : Feed}

theorem onlyFeed_offerSets (q : Quad) (sets : List SampleSet) (s : State) : OnlyFeed f s (offerSets (feedRing f q) sets s) := by
  rw [offerSets_eq_setTracks]
  exact onlyFeed_setTracks fun w off => offerSets_tracks_other _ _ sets (trackRing_other off q)

theorem onlyFeed_writeEvent (q : Quad) (sets : List SampleSet) (s : State) : OnlyFeed f s (writeEvent (feedRing f q) sets s) :=
  (onlyFeed_setRing q _ s).trans (.walk (fun i u => .of_frame (frame_overrunRecord u (feedRing f q) i)) _ _)

theorem onlyFeed_makePresent (q : Quad) (s : State) : OnlyFeed f s (makePresent f q s) :=
  keeps_ite (OnlyFeed.refl f s) ((onlyFeed_setFr _ s).trans (onlyFeed_resetRing q _))

theorem onlyFeed_checkSequence (q : Quad) (c : BitVec 4) (s : State) : OnlyFeed f s (checkSequence f q c s) :=
  (keeps_ite (P := OnlyFeed f s) (.of_frame (frame_report s _ _)) (OnlyFeed.refl f s)).trans (onlyFeed_setFr _ _)

theorem onlyFeed_acceptSound (q : Quad) (p : Packet) (s : State) : OnlyFeed f s (acceptSound f q p s) := by
  have written : OnlyFeed f s _ := (onlyFeed_makePresent q s).trans (onlyFeed_writeEvent q p.soundSets _)
  exact (written.trans (onlyFeed_offerSets q p.soundSets _)).trans (onlyFeed_setFr _ _)

theorem onlyFeed_lockedSound (line : Nat) (q : Quad) (p : Packet) (s : State) : OnlyFeed f s (lockedSound f line q p s) := by
  have claimed : OnlyFeed f s (claim f q s) := onlyFeed_setFr _ s
  refine keeps_ite (P := OnlyFeed f s) (keeps_ite (P := OnlyFeed f s) ?misplaced ?accepted) ?discarded
  case misplaced => exact claimed.trans (.of_frame (frame_report _ _ _))
  case accepted => exact (claimed.trans (onlyFeed_checkSequence q _ _)).trans (onlyFeed_acceptSound q p _)
  case discarded => exact (onlyFeed_setFr _ s).trans (.of_frame (frame_report _ _ _))

theorem onlyFeed_soundPacket (line : Nat) (p : Packet) (s : State) : OnlyFeed f s (soundPacket f line p s) := by
  unfold soundPacket
  cases p.quad? with
  | none => exact OnlyFeed.refl f s
  | some q =>
    have remembered : OnlyFeed f s (remember f q p s) := keeps_ite (onlyFeed_setFr _ s) (OnlyFeed.refl f s)
    exact remembered.trans (keeps_ite (P := OnlyFeed f (remember f q p s)) (onlyFeed_lockedSound line q p _) (OnlyFeed.refl f _))

/-! ## Lines -/

theorem onlyFeed_passThrough (p : Packet) (s : State) : OnlyFeed f s (passThrough f p s) :=
  keeps_ite (onlyFeed_setFr _ s) (OnlyFeed.refl f s)

theorem onlyFeed_emitAll (l : List Nat) (s : State) : OnlyFeed f s (emitAll f l s) :=
  have frame := frame_emitAll f l s
  ⟨fun _ _ => by rw [frame.fr rfl], fun _ _ => by rw [frame.rings rfl], fun _ _ => by rw [frame.watch rfl], frame.ru rfl,
    frame.lineIn rfl, emitAll_lineOut f l s⟩

theorem onlyFeed_openLine (mark : Bool) (s : State) : OnlyFeed f s (openLine f mark s) :=
  (onlyFeed_setFr _ s).trans (.of_frame (frame_setFmt _ f _))

end

/-- What a line of a feed that is not the control feed changes. -/
def lineTouch : Touch :=
  { fr := true, rings := true, tpt := true, watch := true, log := true, mgmt := true, ramps := true, fmt := true, active := true,
    ce := true, cues := true, clips := true, cm := true, lineOut := true, pc := true }

/-- From s to t a line of feed f has been read, or a part of one: what it changes, and that no command waits for it. -/
structure LineTaken (f : Feed) (s t : State) : Prop where
  frame : Frame lineTouch s t
  only : OnlyFeed f s t
  waits : s.noneWaits = true → t.noneWaits = true

section
variable {f : Feed} {s t u : State}

theorem LineTaken.refl (f : Feed) (s : State) : LineTaken f s s := ⟨Frame.refl _ s, OnlyFeed.refl f s, id⟩

theorem LineTaken.trans (h : LineTaken f s t) (k : LineTaken f t u) : LineTaken f s u :=
  ⟨h.frame.trans k.frame, h.only.trans k.only, fun none => k.waits (h.waits none)⟩

theorem lineTaken_emitAll (l : List Nat) (s : State) : LineTaken f s (emitAll f l s) :=
  ⟨(frame_emitAll f l s).mono, onlyFeed_emitAll l s, fun none => noneWaits_of_told none (told_emitAll f l s)⟩

theorem lineTaken_passThrough (p : Packet) (s : State) : LineTaken f s (passThrough f p s) :=
  ⟨(frame_passThrough s f p).mono, onlyFeed_passThrough p s, fun none => noneWaits_of_frame none (frame_passThrough s f p)⟩

theorem lineTaken_takeStamp (rate : Nat) (t : Stamp) (s : State) : LineTaken f s (takeStamp f rate t s) :=
  ⟨(frame_takeStamp s f rate t).mono, .of_frame (frame_takeStamp s f rate t), noneWaits_takeStamp f rate t s⟩

theorem lineTaken_stampPacket (p : Packet) (s : State) : LineTaken f s (stampPacket f p s) := by
  unfold stampPacket
  dsimp only
  split
  · exact (keeps_ite (P := LineTaken f s) (lineTaken_takeStamp _ _ s) (LineTaken.refl f s)).trans (lineTaken_passThrough p _)
  · exact lineTaken_passThrough p s

theorem lineTaken_packet (line : Nat) (p : Packet) (s : State) : LineTaken f s (takePacket f line false p s) := by
  unfold takePacket
  split
  · exact ⟨(frame_soundPacket s f line p).mono, onlyFeed_soundPacket line p s, fun none => noneWaits_of_told none (told_soundPacket f line p s)⟩
  · exact lineTaken_passThrough p s
  · exact lineTaken_passThrough p s
  · exact lineTaken_stampPacket p s
  · exact lineTaken_passThrough p s
  · exact lineTaken_passThrough p s

theorem lineTaken_truncated (h : Option Word) (s : State) : LineTaken f s (truncatedPacket f h s) :=
  ⟨(frame_truncatedPacket s f h).mono, .of_frame (frame_truncatedPacket s f h), fun none =>
    noneWaits_of_told none (told_truncatedPacket f h s)⟩

theorem lineTaken_scanned (line : Nat) (x : Scanned) (s : State) : LineTaken f s (takeScanned f line false x s) := by
  refine keeps_ite (P := LineTaken f s) (LineTaken.refl f s) ?_
  cases x with
  | packet p => exact lineTaken_packet line p s
  | truncated h => exact lineTaken_truncated h s

theorem lineTaken_readLine (line : Nat) (items : List Scanned) (taken : Nat) (es : List Nat) (s : State) :
    LineTaken f s (readLine f line false items taken es s) := by
  induction items generalizing taken es s with
  | nil => exact lineTaken_emitAll es s
  | cons x rest ih =>
    rw [readLine_cons]
    exact ((lineTaken_emitAll _ s).trans (lineTaken_scanned line x _)).trans (ih _ _ _)

theorem lineTaken_sendOutput (line : Nat) (r : LineRecord) (s : State) : LineTaken f s (sendOutput f line r s) :=
  ⟨(frame_sendOutput s f line r).mono, .of_frame (frame_sendOutput s f line r), noneWaits_sendOutput f line r s⟩

theorem lineTaken_sendEmpty (r : LineRecord) (s : State) : LineTaken f s (sendEmpty f r s) :=
  ⟨(frame_sendEmpty s f r).mono, .of_frame (frame_sendEmpty s f r), fun none => noneWaits_of_frame none (frame_sendEmpty s f r)⟩

theorem lineTaken_openLine (mark : Bool) (s : State) : LineTaken f s (openLine f mark s) :=
  ⟨(frame_openLine s f mark).mono, onlyFeed_openLine mark s, fun none => noneWaits_of_frame none (frame_openLine s f mark)⟩

/-- A line of a feed that is not the control feed: no command comes with it (R9, R21). -/
theorem lineTaken_takeLine (notControl : s.mgmt.controlFeed ≠ f) (r : LineRecord) (e : List Nat) :
    LineTaken f s (takeLine f r e s) := by
  have control : decide (s.mgmt.controlFeed = f) = false := decide_eq_false notControl
  unfold takeLine
  rw [control]
  exact keeps_ite (lineTaken_sendEmpty r s)
    (((lineTaken_openLine _ s).trans (lineTaken_readLine _ _ _ _ _)).trans (lineTaken_sendOutput _ r _))

theorem exec_lineRecord_of_quiet (quiet : s.quiet = true) (notControl : s.mgmt.controlFeed ≠ f) (r : LineRecord) (e : List Nat) :
    exec (.lineRecord f r e) s = .next (takeLine f r e s) :=
  congrArg Host.Outcome.next ((feedEvent_of_awake _ s (awake_of_quiet quiet)).trans
    (finish_of_noneWaits _ ((lineTaken_takeLine notControl r e).waits (noneWaits_of_quiet quiet))))

end

end Machine
end Sys2Proof
end

section
/-! PROOF. What an event leaves alone (R8, R11, R12, R13, R14, R15). -/

namespace Sys2Proof
namespace Machine

/-! ## The parts of an instant of domain 8 -/

section
variable {carried : Bool} {lines : LineSet} {p : Part} {s t u : State}

theorem instantTouch_watch (notPresence : ∀ l, p ≠ .presence l) (notOffer : ∀ l, p ≠ .lineOffer l) : (instantTouch p).watch = false := by
  cases p with
  | presence l => exact absurd rfl (notPresence l)
  | lineOffer l => exact absurd rfl (notOffer l)
  | _ => rfl

theorem instantTouch_marks (notEmission : p ≠ .emission) (notClips : p ≠ .clips) :
    (instantTouch p).clips = false ∧ (instantTouch p).cm = false := by
  cases p with
  | emission => exact absurd rfl notEmission
  | clips => exact absurd rfl notClips
  | _ => exact ⟨rfl, rfl⟩

theorem lineTrack_line (l : Fin 16) {w : TrackNo} (feed : w.val < 128) : lineTrack l ≠ w := fun same => by
  rw [← same] at feed
  simp only [lineTrack] at feed
  omega

theorem instantPart_feedTracks (carried : Bool) (lines : LineSet) (p : Part) (s : State) {w : TrackNo} (feed : w.val < 128) :
    (instantPart carried lines p s).watch.tracks.get w = s.watch.tracks.get w := by
  by_cases presence : ∃ l, p = .presence l
  · obtain ⟨l, rfl⟩ := presence
    exact keeps_ite (P := fun t : State => t.watch.tracks.get w = s.watch.tracks.get w)
      (judgeTrack_tracks_other _ s (Ne.symm (lineTrack_line l feed))) rfl
  by_cases offer : ∃ l, p = .lineOffer l
  · obtain ⟨l, rfl⟩ := offer
    exact Table.get_set_other _ _ _ _ (lineTrack_line l feed)
  · rw [(instantPart_frame carried lines p s).watch
      (instantTouch_watch (fun l same => presence ⟨l, same⟩) fun l same => offer ⟨l, same⟩)]

theorem instantPart_keepsMarks (carried : Bool) (lines : LineSet) (p : Part) (s : State) :
    KeepsMarks domain8 s (instantPart carried lines p s) := by
  by_cases emission : p = .emission
  · subst emission
    exact (emission_keepsMarks domain8 s).trans (.of_frame (frame_setRu _ _) _)
  by_cases clips : p = .clips
  · subst clips
    exact keepsMarks_handOverClips _ s
  · obtain ⟨kept, rounds⟩ := instantTouch_marks emission clips
    exact .of_frame (instantPart_frame carried lines p s) _ kept rounds

theorem keepsPatch_writeLineRing (lines : LineSet) (n : LineQuad) (s : State) :
    KeepsPatch domain8 (fun r => 32 ≤ r.val) s (writeLineRing lines n s) := by
  refine .of_tpt (frame_writeLineRing s lines n) fun i _ off => ?_
  have still : overrun (lineRing n) (s.tpt.get i) ((s.rings.get (lineRing n)).written + 1) = false := by
    refine decide_eq_false fun ⟨_, ring, _⟩ => off ?_
    rw [ring]
    exact Nat.le_add_right 32 n.val
  exact (writeEvent_get (lineRing n) [lineQuadSet lines n] i s).trans (if_neg (Bool.eq_false_iff.1 still))

/-- With no commit in flight a part of an instant of domain 8 keeps to the domain and the line rings. -/
theorem instantPart_keepsPatch (carried : Bool) (lines : LineSet) (p : Part) (noFlight : s.ce.inFlight = none) :
    (instantPart carried lines p s).cues = s.cues ∧
      KeepsPatch domain8 (fun r => 32 ≤ r.val) s (instantPart carried lines p s) := by
  by_cases switch : p = .switch
  · subst switch
    have same : instantPart carried lines .switch s = s := switchAt_of_idle noFlight
    rw [same]
    exact ⟨rfl, KeepsPatch.refl _ _ s⟩
  refine ⟨(instantPart_frame carried lines p s).cues (instantTouch_commit switch).2.2.2, ?_⟩
  cases p with
  | switch => exact absurd rfl switch
  | emission => exact ((emission_keepsPatch domain8 s).mono fun _ => False.elim).trans (.of_frame (frame_setRu _ _) _ _)
  | lineWrite n => exact keepsPatch_writeLineRing lines n s
  | takePoints => exact keepsPatch_judgeTakePoints s
  | lineOffer l => exact .of_frame (frame_offerLine s lines l) _ _
  | clips => exact .of_frame (frame_handOverClips s _) _ _
  | presence l => exact .of_frame (instantPart_frame carried lines (.presence l) s) _ _
  | silence => exact .of_frame (frame_countSilence s) _ _
  | absence | cadence | dueCount | pathCheck | settle | leaveLocked | stop => exact KeepsPatch.refl _ _ s

/-! ## The events of domain 8 -/

theorem KeepsFeeds.of_frame {touch : Touch} (k : Frame touch s t) (marks : KeepsMarks domain8 s t)
    (fr : touch.fr = false := by rfl) (pc : touch.pc = false := by rfl) (rings : touch.rings = false := by rfl)
    (watch : touch.watch = false := by rfl) (cues : touch.cues = false := by rfl) (ce : touch.ce = false := by rfl)
    (active : touch.active = false := by rfl) (fmt : touch.fmt = false := by rfl) (ramps : touch.ramps = false := by rfl)
    (tpt : touch.tpt = false := by rfl) : KeepsFeeds s t :=
  ⟨k.fr fr, k.pc pc, fun _ _ => by rw [k.rings rings], fun _ _ => by rw [k.watch watch], marks.clips, marks.rounds,
    fun _ => ⟨k.cues cues, .of_frame k _ _ ce active fmt ramps tpt⟩⟩

theorem KeepsFeeds.refl (s : State) : KeepsFeeds s s := .of_frame (Frame.refl {} s) (KeepsMarks.refl _ s)

theorem KeepsFeeds.trans (h : KeepsFeeds s t) (k : KeepsFeeds t u) : KeepsFeeds s u := by
  obtain ⟨fr, pc, rings, tracks, clips, rounds, patch⟩ := h
  obtain ⟨fr', pc', rings', tracks', clips', rounds', patch'⟩ := k
  have marks := KeepsMarks.trans (d := domain8) ⟨clips, rounds⟩ ⟨clips', rounds'⟩
  refine ⟨fr'.trans fr, pc'.trans pc, fun r feed => (rings' r feed).trans (rings r feed),
    fun w feed => (tracks' w feed).trans (tracks w feed), marks.clips, marks.rounds, fun noFlight => ?_⟩
  obtain ⟨cues, before⟩ := patch noFlight
  obtain ⟨cues', after⟩ := patch' (by rw [before.1, noFlight])
  exact ⟨cues'.trans cues, before.trans after⟩

theorem instantPart_keepsFeeds (carried : Bool) (lines : LineSet) (p : Part) (s : State) :
    KeepsFeeds s (instantPart carried lines p s) := by
  have frame := instantPart_frame carried lines p s
  obtain ⟨fr, pc, -⟩ := instantTouch_never p
  have marks := instantPart_keepsMarks carried lines p s
  exact ⟨frame.fr fr, frame.pc pc, fun _ => instantPart_feedRings lines p s, fun _ => instantPart_feedTracks carried lines p s,
    marks.clips, marks.rounds, instantPart_keepsPatch carried lines p⟩

theorem takeParts_keepsFeeds (ticks : List LineSet) (carried : Bool) (taken parts : List Part) (s : State) :
    KeepsFeeds s (takeParts ticks carried taken parts s) :=
  takeParts_holds (P := KeepsFeeds s) (fun p _ lines _ h => h.trans (instantPart_keepsFeeds carried lines p _)) taken (KeepsFeeds.refl s)

theorem keepsFeeds_setRu (r : Reference) (s : State) : KeepsFeeds s (s.setRu r) :=
  .of_frame (frame_setRu s r) (.of_frame (frame_setRu s r) _)

theorem keepsFeeds_report (reason : Reason) (src : FaultSource) (s : State) : KeepsFeeds s (report reason src s) :=
  .of_frame (frame_report s reason src) (.of_frame (frame_report s reason src) _)

theorem keepsFeeds_runTicks (ticks : List LineSet) (order frameOrder : List Part) (s : State) :
    KeepsFeeds s (runTicks ticks order frameOrder s) := by
  have presented : KeepsFeeds s { s with lineIn := ticks.getLastD s.lineIn } :=
    .of_frame (frame_setLineIn s _) (.of_frame (frame_setLineIn s _) _)
  exact presented.trans (takeParts_keepsFeeds _ _ _ _ _)

theorem keepsFeeds_runningTicks (ticks : List LineSet) (order frameOrder : List Part) (s : State) :
    KeepsFeeds s (runningTicks ticks order frameOrder s) :=
  (keepsFeeds_runTicks ticks order frameOrder s).trans (takeParts_keepsFeeds _ _ _ _ _)

theorem keepsFeeds_endingTicks (realign : Bool) (ticks : List LineSet) (order frameOrder : List Part) (s : State) :
    KeepsFeeds s (endingTicks realign ticks order frameOrder s) := by
  have turned (v : State) : KeepsFeeds v (turnFrame8 realign v) :=
    .of_frame (frame_turnFrame8 v realign) ((KeepsMarks.of_frame (frame_setRu v _) _).trans (keepsMarks_freshRound _ _))
  exact ((keepsFeeds_runTicks ticks order frameOrder s).trans (turned _)).trans (takeParts_keepsFeeds _ _ _ _ _)

theorem keepsFeeds_passTime (e : Time) (s : State) : KeepsFeeds s (passTime e s) := keepsFeeds_setRu _ s

theorem keepsFeeds_setTickEvent (e : Time) (lines : LineSet) (order frameOrder : List Part) (s : State) :
    KeepsFeeds s (setTickEvent e lines order frameOrder s) := by
  have passed := keepsFeeds_passTime e s
  have ended := keeps_ite (P := KeepsFeeds s) (c := frameTicks (passTime e s).ru ≤ (passTime e s).ru.ticks)
    (passed.trans (keepsFeeds_endingTicks false [] [] frameOrder _)) passed
  exact keeps_ite (P := KeepsFeeds s) passed (keeps_ite (P := KeepsFeeds s)
    (ended.trans (keepsFeeds_endingTicks _ _ _ _ _)) (ended.trans (keepsFeeds_runningTicks _ _ _ _)))

theorem keepsFeeds_pulseEvent (e : Time) (owed : OwedTicks) (frameOrder : List Part) (s : State) :
    KeepsFeeds s (pulseEvent e owed frameOrder s) := by
  have passed := keepsFeeds_passTime e s
  cases state : s.ru.state with
  | free =>
    rw [pulseEvent_of_free e owed frameOrder state]
    exact (((passed.trans (keepsFeeds_setRu _ _)).trans (keepsFeeds_endingTicks _ _ _ _ _)).trans (keepsFeeds_report _ _ _)).trans
      (keepsFeeds_setRu _ _)
  | locked =>
    rw [pulseEvent_of_locked e owed frameOrder state]
    exact (keeps_ite (P := KeepsFeeds s) (passed.trans (keepsFeeds_endingTicks _ _ _ _ _)) passed).trans (keepsFeeds_setRu _ _)

theorem keepsFeeds_waitTimeoutEvent (e : Time) (owed : OwedTicks) (frameOrder : List Part) (s : State) :
    KeepsFeeds s (waitTimeoutEvent e owed frameOrder s) :=
  keeps_ite (P := KeepsFeeds s) ((keepsFeeds_passTime e s).trans (keepsFeeds_endingTicks _ _ _ _ _)) (keepsFeeds_passTime e s)

theorem keepsFeeds_referenceLostEvent (e : Time) (s : State) : KeepsFeeds s (referenceLostEvent e s) :=
  keeps_ite (P := KeepsFeeds s) (((keepsFeeds_passTime e s).trans (keepsFeeds_setRu _ _)).trans (keepsFeeds_report _ _ _))
    (keepsFeeds_passTime e s)

end

/-- Settles O6: each event takes parts, and what a part leaves alone they leave alone together. -/
theorem eventsKeepTheRest : Obligations.EventsKeepTheRest := by
  intro s quiet
  refine ⟨fun f period order => ⟨_, exec_frameBoundary_of_quiet quiet f period order, ?_, keepsOtherFeeds_frameMark period order s⟩,
    fun f order => ⟨_, exec_lineRecordGap_of_quiet quiet f order, ?_, keepsOtherFeeds_lineGap order s⟩,
    fun f r e notControl => ?_,
    fun e lines order frameOrder => ⟨_, exec_setTick_of_quiet e lines order frameOrder quiet, ?_, keepsFeeds_setTickEvent ..⟩,
    fun e owed frameOrder => ⟨⟨_, exec_referencePulse_of_quiet e owed frameOrder quiet, ?_, keepsFeeds_pulseEvent ..⟩,
      ⟨_, exec_referenceWaitTimeout_of_quiet e owed frameOrder quiet, ?_, keepsFeeds_waitTimeoutEvent ..⟩⟩,
    fun e => ⟨_, exec_referenceLost_of_quiet e quiet, ?_, keepsFeeds_referenceLostEvent e s, ?_⟩⟩
  · exact keepsSettings_of_frame (frame_frameMark s f period order)
  · exact keepsSettings_of_frame (frame_lineGap s f order)
  · obtain ⟨frame, only, -⟩ := lineTaken_takeLine notControl r e
    exact ⟨_, exec_lineRecord_of_quiet quiet notControl r e, keepsSettings_of_frame frame, only.fr, only.rings, only.tracks,
      only.ru, only.lineIn, only.lineOut⟩
  · exact keepsSettings_of_frame (frame_setTickEvent s e lines order frameOrder)
  · exact keepsSettings_of_frame (frame_pulseEvent s e owed frameOrder)
  · exact keepsSettings_of_frame (frame_waitTimeoutEvent s e owed frameOrder)
  · exact keepsSettings_of_frame (frame_referenceLostEvent s e)
  · have frame := frame_referenceLostEvent s e
    exact ⟨frame.lineIn rfl, frame.lineOut rfl, frame.rings rfl, frame.tpt rfl⟩

end Machine
end Sys2Proof
end
